-- ==== Sys2Proof/Word.lean ====
section
/-! DEFINITION. The word types of the EC-740's records and the plain integer arithmetic of manual section 5.2. -/

namespace Sys2Proof

/-- One byte of memory, of a link message or of a head bus transaction. -/
abbrev Byte := BitVec 8

/-- A 32-bit register, record field or counter that wraps. -/
abbrev Word := BitVec 32

/-- `x` brought to the nearer end of `lo..hi` (R18: an out-of-range quantity). -/
def clampNat (lo hi x : Nat) : Nat := min hi (max lo x)

/-- `x` brought to the nearer end of `lo..hi`, for signed quantities. -/
def clampInt (lo hi x : Int) : Int := min hi (max lo x)

/-- ceil(a / b) for natural numbers, as manual section 5.2 defines it. -/
def ceilDiv (a b : Nat) : Nat := (a + b - 1) / b

end Sys2Proof
end

