-- ==== Sys2Proof/Syntax.lean ====
section
/-! DEFINITION. The commands of the EC-740: one constructor per row of spec/opcode_table.json. Operands carry
what the outside supplies with the happening. `moment` is the µs moment of a happening that no timer of the part
fixes (log entry 2). A request kind (LAMP_SET and so on) has no operands of its own: its arguments are those the
scan read from the slot (log entry 4). -/

namespace Sys2Proof

/-- The blocks that act at an output frame start beside the status writer and the list engine. -/
inductive FrameBlock where
  | playout | lamp | headBus | overlay | link
  deriving DecidableEq, Repr

/-- How a transaction that ran on the bus ends by itself (R142). -/
inductive BusEnd where
  | success | noAckAddr | noAckData
  deriving DecidableEq, Repr

/-- Every outcome a head bus transaction can have (R142 to R148). -/
inductive BusOutcome where
  | success | noAckAddr | noAckData | arbLost | busStuck | busyTimeout | busFault
  deriving DecidableEq, Repr

/-- The three causes of TEMP_STALE (R81). -/
inductive StaleCause where
  | noEntry | failures | age
  deriving DecidableEq, Repr

/-- The commands. -/
inductive Instr where
  /-- START given through CONTROL (R5). -/
  | start
  /-- HALT given through CONTROL (R8). -/
  | halt
  /-- SOFT_RESET given through CONTROL (R11). -/
  | softReset
  /-- LIST_RESYNC given through CONTROL (R12). -/
  | listResync
  /-- A host write to WORK_BASE (R2). -/
  | workBaseWrite (value : Word)
  /-- A host write to ATTENTION (R4). -/
  | attentionWrite (value : Word)
  /-- A host write to ATTENTION_MASK (R4). -/
  | attentionMaskWrite (value : Word)
  /-- A host write to the register at a byte offset (R2, R3): see the meaning for what each offset does. -/
  | registerWrite (offset : Nat) (value : Word)
  /-- Power-on reset (R11). -/
  | powerOnReset
  /-- The read of the configuration record ends (R5). -/
  | configurationLoad (moment : Nat)
  /-- The preparation writes end (R7). -/
  | regionPreparation (moment : Nat)
  /-- A memory access of work in progress ends with an error response (R10). -/
  | memoryError (moment : Nat)
  /-- The output timer expires (R41); `order` is the order in which the blocks take it (log entry 8). -/
  | outputFrameStart (order : List FrameBlock)
  /-- The list poll timer expires (R14). -/
  | listPollTimerExpiry
  /-- The scan reads the slot at the cursor (R15). -/
  | scanSlot (moment : Nat)
  /-- The taken request of unknown kind completes (R18). -/
  | badKind
  /-- The taken LAMP_SET is carried out (R76). -/
  | lampSet
  /-- The taken EXPOSURE_SET is carried out (R95). -/
  | exposureSet
  /-- The taken CHAINAGE_RUN is carried out (R114). -/
  | chainageRun
  /-- The taken CHAINAGE_CALIBRATE is carried out (R117). -/
  | chainageCalibrate
  /-- The taken MARK_SET is carried out (R120). -/
  | markSet
  /-- The taken DRIVE_HOLD is carried out (R124). -/
  | driveHold
  /-- The taken FRAME_HOLD is carried out (R36). -/
  | frameHold
  /-- The taken FRAME_RELEASE is carried out (R37). -/
  | frameRelease
  /-- The taken SNAPSHOT is handed to the still unit (R160). -/
  | snapshot
  /-- The taken OVERLAY_WRITE joins the pending edit list (R63). -/
  | overlayWrite
  /-- The taken OVERLAY_STYLE joins the pending edit list (R63). -/
  | overlayStyle
  /-- The taken FONT_LOAD joins the pending edit list (R63). -/
  | fontLoad
  /-- The taken BUS_TRANSFER is handed to the head bus unit (R154). -/
  | busTransfer
  /-- The taken POLL_SET is carried out (R153). -/
  | pollSet
  /-- The taken BUS_RESET is handed to the head bus unit (R148); `acked` write bytes of a transaction it cuts
  had been acknowledged (log entry 21). -/
  | busReset (acked : Nat)
  /-- The taken UPLINK_SEND is handed to the link unit (R137). -/
  | uplinkSend
  /-- The taken LATCH_CLEAR is carried out (R171). -/
  | latchClear
  /-- An underrun brings the consecutive underrun count to the stall limit (R49; log entry 3). -/
  | captureStall
  /-- The planned frame becomes due (R23). -/
  | captureDue
  /-- The planned exposure time has passed (R26). -/
  | triggerEnd
  /-- Frame-valid rises (R27). -/
  | frameValidRise
  /-- A line of pixels has arrived: its bytes in order (R27, R28). -/
  | pixelLine (moment : Nat) (bytes : List Byte)
  /-- Frame-valid falls (R28). -/
  | frameValidFall (moment : Nat)
  /-- The frame whose last line has been written completes (R29). -/
  | frameComplete (moment : Nat)
  /-- The capture deadline expires (R31). -/
  | captureDeadlineExpiry
  /-- The third consecutive abandonment (R32; log entry 3). -/
  | sensorLos (moment : Nat)
  /-- A stale condition of the given cause arises at the lamp unit (R81; log entry 3). -/
  | tempStale (cause : StaleCause)
  /-- The third consecutive failure of a gain write, with its outcome (R102; log entry 3). -/
  | gainWriteFailed (moment : Nat) (outcome : BusOutcome)
  /-- The bytes of an accepted REEL message arrive (R108). -/
  | reel (moment : Nat) (bytes : List Byte)
  /-- The bytes of a REEL whose candidate is rejected a third time arrive (R111; log entry 3). -/
  | chainageResync (moment : Nat) (bytes : List Byte)
  /-- The bytes of an accepted POWER_GRANT message arrive (R79). -/
  | powerGrant (moment : Nat) (bytes : List Byte)
  /-- The bytes of an accepted OPERATOR_TEXT message arrive (R69). -/
  | operatorText (moment : Nat) (bytes : List Byte)
  /-- The bytes of an accepted KEEPALIVE message arrive (R131). -/
  | keepalive (moment : Nat) (bytes : List Byte)
  /-- The bytes of an accepted message of kind 0x20..0x7F arrive (R132). -/
  | surfaceMessage (moment : Nat) (bytes : List Byte)
  /-- The bytes of an accepted HALT_DRIVE message arrive (R123). -/
  | haltDrive (moment : Nat) (bytes : List Byte)
  /-- The bytes of an accepted RELEASE_DRIVE message arrive (R123). -/
  | releaseDrive (moment : Nat) (bytes : List Byte)
  /-- Bytes arrive at whose last the message is dropped: for its length or CRC, or, with `framingError`, because
  one more byte follows whose stop bit is low (R127, R128). -/
  | messageDropped (bytes : List Byte) (framingError : Bool)
  /-- The bytes of a good message that the filter rejects arrive (R130). -/
  | messageDiscarded (bytes : List Byte)
  /-- More than 2 ms pass inside a message (R127). -/
  | rxGapTimeout
  /-- The silence timer expires (R133). -/
  | linkLost
  /-- The status cadence count reaches K (R136; log entry 3). -/
  | headStatus
  /-- The idle transmitter starts the oldest queued message (R135). -/
  | uplinkTransmitStart
  /-- The last stop bit of the message on the wire ends (R135). -/
  | uplinkSendEnd
  /-- A start condition not made by the part is seen (R141). -/
  | busForeignStart
  /-- A stop condition not made by the part is seen (R141, R145). -/
  | busForeignStop
  /-- The busy timer expires; with `stop`, a stop condition not made by the part falls together with the expiry and is
  taken after it; left out, no stop does (R145; log entry 60). -/
  | busBusyTimeout (stop : Bool := false)
  /-- Arbitration is lost after `acked` write bytes were acknowledged (R144). -/
  | arbitrationLost (moment : Nat) (acked : Nat)
  /-- HB_CLK stays low beyond the stretch limit after `acked` write bytes were acknowledged (R143). -/
  | busStuck (moment : Nat) (acked : Nat)
  /-- The transaction on the bus ends with `outcome`, `acked` write bytes acknowledged, `read` received (R142). -/
  | busTransactionEnd (moment : Nat) (outcome : BusEnd) (acked : Nat) (read : List Byte)
  /-- The poll in hand fails with `outcome` and brings its slot's failures to 4 (R152; log entry 3). -/
  | pollFailing (moment : Nat) (outcome : BusOutcome)
  /-- The countdown of an enabled poll entry reaches 0 (R151; log entry 3). -/
  | pollDue (moment : Nat) (entry : Nat)
  /-- The recovery attempt ends (R146): the readings of HB_DAT before the first clock pulse and after each, whether
  HB_CLK then stays low beyond the stretch limit, and HB_DAT as read at the end. -/
  | recoveryEnd (moment : Nat) (reads : List Bool) (clkStuck dat : Bool)
  /-- The last byte of the still has been written (R164). -/
  | stillCopyEnd (moment : Nat)
  /-- The receiver takes the byte 0xC5 in HUNT (R128). -/
  | startByte
  deriving DecidableEq, Repr

end Sys2Proof
end

