-- ==== Sys2Proof/Config.lean ====
section
/-! DEFINITION. What the part fixes: its identity, the limits the rules name, and the free values of the manual. -/

namespace Sys2Proof.Config

/-- IDENT (manual section 12.1): family code 0x0E74, major revision 0x01, minor revision 0x00. -/
def ident : Word := 0x0E740100

/-- Free value (R59): row `row` of the fixed glyph of a code in 0x21..0x7E or 0x80..0xDF other than
0xDB. The manual says these patterns are set in the part and does not give them. Log entry 12. -/
opaque fixedGlyph (code row : Nat) : BitVec 16

/-- Largest chainage (R110), mm. -/
def xMax : Int := 9999994

/-- Smallest chainage (R110), mm. -/
def xMin : Int := -999994

/-- Entries of the ring table that the part can hold (N is at most 16). -/
def maxStores : Nat := 16

/-- Temperature sent where no reading has arrived (R26, R92, R136). -/
def noTemperature : Int := -32768

end Sys2Proof.Config
end

