-- ==== Sys2Proof/Machine/State.lean ====
section
/-! DEFINITION. The state of the EC-740 as plain data, and the machine right after reset.
One structure per block, with the reset values of the block's own chapter as field defaults. Timers are held as the
µs moment of their expiry (log entry 2). A value the manual calls 'none' at reset and that is not an Option here
holds zero (log entry 5). -/

namespace Sys2Proof.Machine

/-- Part states (R3, section 1.3 of the manual's chapter 1). -/
inductive PartState where
  | off | loading | running | halting | halted | faulted
  deriving DecidableEq, Repr

/-- List states (R12). -/
inductive ListState where
  | active | faulted
  deriving DecidableEq, Repr

/-- Trigger states (section 2.2). -/
inductive TrigState where
  | idle | waiting | deferred | exposing | readout
  deriving DecidableEq, Repr

/-- States of a frame store (section 2.6). -/
inductive StoreState where
  | void | filling | complete
  deriving DecidableEq, Repr

/-- Lamp channel modes (R77). -/
inductive LampMode where
  | off | steady | strobe
  deriving DecidableEq, Repr

/-- Who sets a lamp channel's level (section 5.1). -/
inductive LampControl where
  | auto | manual
  deriving DecidableEq, Repr

/-- Exposure modes (R93). -/
inductive ExpMode where
  | auto | manual
  deriving DecidableEq, Repr

/-- Gain write states (R93). -/
inductive GainState where
  | idle | queued | writing
  deriving DecidableEq, Repr

/-- Chainage run states (R107). -/
inductive RunState where
  | stopped | running
  deriving DecidableEq, Repr

/-- Travel directions (R107). -/
inductive Travel where
  | increasing | decreasing
  deriving DecidableEq, Repr

/-- Link states (R126). -/
inductive LinkState where
  | down | up | lost
  deriving DecidableEq, Repr

/-- Receiver states (R126). -/
inductive RxState where
  | hunt | address | kind | length | payload | crcHigh | crcLow
  deriving DecidableEq, Repr

/-- Bus states (R140). -/
inductive BusState where
  | idle | waitFree | active | recovery | fault
  deriving DecidableEq, Repr

/-- Roles of a poll entry (section 9.1). -/
inductive PollRole where
  | general | temperature
  deriving DecidableEq, Repr

/-- Where a START was taken (R5, R6). -/
inductive StartOrigin where
  | off | halted
  deriving DecidableEq, Repr

/-- The configuration load under way in LOADING (R5 to R7). -/
structure Loading where
  origin : StartOrigin
  /-- The checks have passed and the regions are being prepared. -/
  preparing : Bool
  listChanged : Bool
  ringChanged : Bool
  deriving DecidableEq, Repr

/-- One poll table entry (section 9.1). -/
structure PollEntry where
  enable : Bool := false
  address : Nat := 0
  register : Byte := 0
  length : Nat := 0
  period : Nat := 0
  role : PollRole := .general
  deriving DecidableEq, Repr

/-- One lamp channel as configured (section 5.1). -/
structure ChannelCfg where
  mode : LampMode := .off
  control : LampControl := .manual
  iFull : Nat := 0
  manual : Nat := 0
  standby : Nat := 0
  deriving DecidableEq, Repr

/-- The configuration values taken by the last successful START (manual section 12.2, in offset order). -/
structure Cfg where
  slots : Nat := 0
  eventCount : Nat := 0
  listBase : Nat := 0
  eventBase : Nat := 0
  ringBase : Nat := 0
  stores : Nat := 0
  width : Nat := 0
  height : Nat := 0
  stride : Nat := 0
  tSmin : Nat := 0
  tRo : Nat := 0
  guardMs : Nat := 0
  burnIn : Bool := false
  winLeft : Nat := 0
  winTop : Nat := 0
  winWidth : Nat := 0
  winHeight : Nat := 0
  cadence : Nat := 0
  underrunFill : Bool := false
  stallLimit : Nat := 0
  fillY : Byte := 0
  fillCb : Byte := 0
  fillCr : Byte := 0
  pollMs : Nat := 0
  scale : Nat := 0
  stampEnable : Bool := false
  stampRow : Nat := 0
  stampCol : Nat := 0
  stampAttr : Byte := 0
  markAttr : Byte := 0
  markFlash : Nat := 0
  blinkPeriod : Nat := 0
  bannerEnable : Bool := false
  bannerRow : Nat := 0
  bannerAttr : Byte := 0
  scrollSpeed : Nat := 0
  channels : List ChannelCfg := []
  pwmHz : Nat := 0
  budget : Nat := 0
  stillLevel : Nat := 0
  tDerate : Int := 0
  tCut : Int := 0
  hysteresis : Nat := 0
  floor : Nat := 0
  expAuto : Bool := false
  damping : Nat := 0
  tMin : Nat := 0
  tPref : Nat := 0
  tMax : Nat := 0
  gMax : Nat := 0
  lMin : Nat := 0
  lMax : Nat := 0
  target : Nat := 0
  tolerance : Nat := 0
  initT : Nat := 0
  initG : Nat := 0
  initL : Nat := 0
  sensorAddr : Nat := 0
  gainReg : Byte := 0
  linkLossHold : Bool := false
  baud : Nat := 0
  unitMatch : Byte := 0
  unitMask : Byte := 0
  management : Bool := false
  cadenceK : Nat := 0
  silenceMs : Nat := 0
  busRate : Nat := 0
  retryLimit : Nat := 0
  stretchMs : Nat := 0
  busyMs : Nat := 0
  poll : List PollEntry := []
  deriving DecidableEq, Repr

/-- A request taken from a slot: the slot's address, its kind and its 48 argument bytes as read at taking (R13). -/
structure Request where
  slot : Nat
  kind : Nat
  args : List Byte
  deriving DecidableEq, Repr

/-- The list engine (section 1.4; R167, R170). -/
structure ListEngine where
  reqIndex : Nat := 0
  reqLap : Nat := 0
  listState : ListState := .active
  scanning : Bool := false
  pollTimer : Option Nat := none
  evIndex : Nat := 0
  evLap : Nat := 0
  missed : BitVec 24 := 0
  /-- The request the scan has taken and that is not yet carried out (log entry 4). -/
  handed : Option Request := none
  /-- A LIST_RESYNC waits for the slot in hand (R12). -/
  resyncWaiting : Bool := false
  deriving DecidableEq, Repr

/-- A fixed frame plan (R22) with the moment at which the frame becomes due (R23). -/
structure FramePlan where
  t : Nat
  level : Nat
  tCap : Nat
  boost : Bool
  dueAt : Nat
  deriving DecidableEq, Repr

/-- The capture frame in progress (R25 to R30). -/
structure Frame where
  store : Nat
  seq : Word
  gain : Nat
  levels : List Nat
  autoLevel : Nat
  chainage : Int := 0
  held : Bool := false
  saturated : Bool := false
  temp : Option Int := none
  burnText : List Byte := []
  /-- The frame's picture has begun: frame-valid rose in READOUT. -/
  picture : Bool := false
  lines : Nat := 0
  meterSum : Nat := 0
  deriving DecidableEq, Repr

/-- The capture unit (section 2.2). -/
structure Capture where
  trig : TrigState := .idle
  plan : Option FramePlan := none
  selPtr : Option Nat := none
  seq : Word := 0
  abandons : Nat := 0
  los : Bool := false
  prevTrigger : Option (Nat × Nat) := none
  deadline : Option Nat := none
  completed : Word := 0
  abandoned : Word := 0
  deferralOpen : Bool := false
  frame : Option Frame := none
  deriving DecidableEq, Repr

/-- One ring table entry (section 2.6). -/
structure RingEntry where
  state : StoreState := .void
  seq : Word := 0
  hold : Bool := false
  playPin : Bool := false
  stillPin : Bool := false
  deriving DecidableEq, Repr

/-- What the video port emits in the present output period (R42). -/
inductive Video where
  | none | fill (overlay : Bool) | store (k : Nat)
  deriving DecidableEq, Repr

/-- The playout unit (section 3.2). `shown = none` is FILL. -/
structure Playout where
  timer : Option Nat := none
  frames : Word := 0
  shown : Option Nat := none
  lastShown : Word := 0
  consec : Nat := 0
  stallOpen : Bool := false
  stallLatch : Bool := false
  underruns : Word := 0
  notShown : Word := 0
  video : Video := .none
  deriving DecidableEq, Repr

/-- One cell of the overlay grid (R58). -/
structure Cell where
  ch : Byte := 0x20
  attr : Byte := 0
  blink : Bool := false
  layer : Nat := 0
  deriving DecidableEq, Repr

/-- One palette entry (R58). -/
structure PaletteEntry where
  y : Byte := 0
  cb : Byte := 128
  cr : Byte := 128
  opacity : Nat := 0
  deriving DecidableEq, Repr

/-- The overlay unit with the stamp renderer (R58). Cell (row, column) stands at index row × 64 + column. -/
structure Overlay where
  cells : List Cell := List.replicate 3072 {}
  palette : List PaletteEntry := List.replicate 16 {}
  glyphs : List Byte := List.replicate 1536 0
  key : BitVec 4 := 0
  care : BitVec 4 := 0xF
  layerEnable : BitVec 4 := 0xF
  blinkPeriod : Nat := 0
  blinkCounter : Nat := 0
  fifo : List Byte := []
  pan : Nat := 0
  bannerLine : List Byte := []
  scrollSpeed : Nat := 0
  markAttr : Byte := 0
  flashLen : Nat := 0
  edits : List Request := []
  flash : Nat := 0
  deriving DecidableEq, Repr

/-- One lamp channel (R75). -/
structure Channel where
  mode : LampMode := .off
  control : LampControl := .manual
  iFull : Nat := 0
  manual : Nat := 0
  standby : Nat := 0
  applied : Nat := 0
  deriving DecidableEq, Repr

/-- The lamp unit (R75). The duty pair (1, 1) is duty 1. -/
structure Lamp where
  channels : List Channel := List.replicate 6 {}
  wantedL : Nat := 0
  dutyT : Nat := 1
  dutyCap : Nat := 1
  boost : Bool := false
  strobe : Bool := false
  budget : Nat := 0
  temp : Option Int := none
  tempAge : Nat := 0
  tempFails : Nat := 0
  tempPresent : Bool := false
  stale : Bool := false
  cut : Bool := false
  ceiling : Nat := 0
  clamp : Bool := false
  /-- Budget cap L_b (R86). -/
  cap : Nat := 0
  /-- The level applied to AUTO channels, L_app (R84). -/
  lApp : Nat := 0
  total : Nat := 0
  deriving DecidableEq, Repr

/-- A completion report of the capture unit (R29, R96). -/
structure Report where
  seq : Word
  t : Nat
  gain : Nat
  level : Nat
  mean : Nat
  boost : Bool
  los : Bool
  deriving DecidableEq, Repr

/-- The exposure unit (R93). -/
structure Exposure where
  mode : ExpMode := .manual
  tMin : Nat := 0
  tPref : Nat := 0
  tMax : Nat := 0
  gMax : Nat := 0
  lMin : Nat := 0
  lMax : Nat := 0
  target : Nat := 0
  tolerance : Nat := 0
  damping : Nat := 0
  planL : Nat := 0
  planT : Nat := 0
  planG : Nat := 0
  lCap : Nat := 0
  gainInEffect : Nat := 256
  gws : GainState := .idle
  handedGain : Option Nat := none
  /-- The value on the bus in WRITING. -/
  busGain : Nat := 0
  /-- In WRITING: an update is queued behind the write. -/
  behind : Bool := false
  retry : Bool := false
  failures : Nat := 0
  last : Option Report := none
  deriving DecidableEq, Repr

/-- The drive hold reason set (R122). -/
structure HoldReasons where
  notRunning : Bool := true
  stopTarget : Bool := false
  linkLost : Bool := false
  surface : Bool := false
  host : Bool := false
  deriving DecidableEq, Repr

/-- The chainage unit (R107). Distances in mm; `scale` is Q16 mm per count; `forward` is d = +1. -/
structure Chainage where
  run : RunState := .stopped
  held : Bool := false
  countReceived : Bool := false
  lastCount : Word := 0
  originValid : Bool := false
  originCount : Word := 0
  baseX : Int := 0
  originValue : Int := 0
  x : Int := 0
  saturated : Bool := false
  scale : Nat := 65536
  forward : Bool := true
  stepLimit : Nat := 65535
  rejects : Nat := 0
  markInterval : Nat := 0
  travel : Travel := .increasing
  nextMark : Option Int := none
  stopTarget : Option Int := none
  fired : Bool := false
  autoMark : Bool := false
  autoStop : Bool := false
  reasons : HoldReasons := {}
  linkLossHold : Bool := false
  deriving DecidableEq, Repr

/-- The receiver and the message being received (R126, R128). -/
structure Rx where
  state : RxState := .hunt
  address : Byte := 0
  kind : Byte := 0
  length : Nat := 0
  payload : List Byte := []
  crc : BitVec 16 := 0
  crcHigh : Byte := 0
  deriving DecidableEq, Repr

/-- A message in the uplink queue: of the host, with its request's slot, or HEAD_STATUS (R126). -/
structure UplinkMsg where
  host : Option Nat
  kind : Byte
  payload : List Byte
  deriving DecidableEq, Repr

/-- The message on the wire and the bytes it is sent as (R135). -/
structure Sending where
  msg : UplinkMsg
  wire : List Byte
  deriving DecidableEq, Repr

/-- The link unit (R126). -/
structure Link where
  rx : Rx := {}
  state : LinkState := .down
  silence : Option Nat := none
  cadence : Nat := 0
  queue : List UplinkMsg := []
  sending : Option Sending := none
  deriving DecidableEq, Repr

/-- A host transfer as taken from its slot (R154). -/
structure HostTransfer where
  slot : Nat
  address : Nat
  buffered : Bool
  writeLen : Nat
  readLen : Nat
  dest : Nat
  buffer : Nat
  inline : List Byte
  deriving DecidableEq, Repr

/-- Whose transaction is in hand (R140). `replaced`: a POLL_SET has replaced the entry since (R152). -/
inductive TxnOwner where
  | gain (value : Nat) | poll (entry : Nat) (replaced : Bool) | host (h : HostTransfer)
  deriving DecidableEq, Repr

/-- A transaction in hand: its owner and its fields (section 9.3). -/
structure Txn where
  owner : TxnOwner
  address : Nat
  write : List Byte
  readLen : Nat
  deriving DecidableEq, Repr

/-- One poll slot (R140). -/
structure PollSlot where
  held : Bool := false
  bytes : List Byte := []
  age : Nat := 0
  failures : Nat := 0
  deriving DecidableEq, Repr

/-- One poll table entry with its countdown, due flag and slot (R140). -/
structure Poll where
  entry : PollEntry := {}
  countdown : Nat := 0
  due : Bool := false
  slot : PollSlot := {}
  deriving DecidableEq, Repr

/-- The head bus unit (R140). -/
structure Bus where
  state : BusState := .idle
  /-- The bus monitor reads BUSY (R141). -/
  monitorBusy : Bool := false
  inHand : Option Txn := none
  retries : Nat := 0
  busyTimer : Option Nat := none
  pendingGain : Option Nat := none
  queue : List HostTransfer := []
  /-- Slots of the BUS_RESET requests waiting on the recovery attempt (R149). -/
  resets : List Nat := []
  /-- The recovery under way was started by a BUS_RESET, not by a BUS_STUCK (R147). -/
  afterReset : Bool := false
  polls : List Poll := List.replicate 8 {}
  deriving DecidableEq, Repr

/-- Where a still order came from (section 10.2); a SNAPSHOT names its request's slot. -/
inductive StillOrigin where
  | snapshot (slot : Nat) | mark | stop
  deriving DecidableEq, Repr

/-- A still order: `frameSeq` is its boost frame's sequence, 0 while none was triggered (R160). -/
structure StillOrder where
  origin : StillOrigin
  claimed : Bool := false
  frameSeq : Word := 0
  deriving DecidableEq, Repr

/-- The current copy (R163). -/
structure StillCopy where
  origin : StillOrigin
  entry : Nat
  buffer : Nat
  store : Nat
  seq : Word
  /-- The lines of the picture already moved (log entry 11). -/
  lines : Nat := 0
  deriving DecidableEq, Repr

/-- The still unit (section 10.2). -/
structure Still where
  orders : List StillOrder := []
  copy : Option StillCopy := none
  deriving DecidableEq, Repr

/-- Why a command stops the model. -/
inductive Fault where
  /-- Raised by no command: every command of the EC-740 has an effect, and a memory error is the part state
  FAULTED (R10), a next state. Safe: it never stands for behaviour of the part. -/
  | unreachable
  deriving DecidableEq, Repr

/-- Why the model gives a command no meaning. -/
inductive Refusal where
  /-- Raised by an arm of `exec` that has no meaning yet; no arm is left so. Safe: nothing can be proved of it. -/
  | notModelled (mnemonic : String)
  deriving DecidableEq, Repr

/-- The whole state of the EC-740, the board memory it masters, and the commands that wait. -/
structure State where
  /-- Commands waiting, first in first out. -/
  pending : List Instr := []
  /-- µs moment of the happening last taken (log entry 2). -/
  now : Nat := 0
  /-- Board memory in canonical form (log entry 6). -/
  mem : List Host.Cell := []
  /-- Address ranges (base, length) whose accesses the board answers with an error (log entry 7). -/
  errors : List (Nat × Nat) := []
  workBase : Word := 0
  attention : BitVec 4 := 0
  attentionMask : BitVec 4 := 0
  part : PartState := .off
  loading : Option Loading := none
  refusalCode : Nat := 0
  refusalOffset : Nat := 0
  cfg : Cfg := {}
  cfgTaken : Bool := false
  /-- WORK_BASE as held when the last successful START succeeded (R2). -/
  areaBase : Nat := 0
  list : ListEngine := {}
  capture : Capture := {}
  ring : List RingEntry := List.replicate 16 {}
  playout : Playout := {}
  overlay : Overlay := {}
  lamp : Lamp := {}
  exposure : Exposure := {}
  chainage : Chainage := {}
  link : Link := {}
  bus : Bus := {}
  still : Still := {}
  deriving DecidableEq, Repr

/-- The machine right after power-on reset (R11): every block at the value its chapter gives; memory with nothing
listed; no command waiting. -/
def State.reset : State := {}

end Sys2Proof.Machine
end

