-- ==== Sys2Proof/Machine/Operands.lean ====
section
/-! DEFINITION. Fields of records: byte order, sign, flag bits, and the argument bytes of a request (R175). Memory
fields are little-endian, link message fields big-endian. -/

namespace Sys2Proof.Machine

/-- Byte `i` of a record, as a number; a byte beyond the record reads 0. -/
def u8 (bs : List Byte) (i : Nat) : Nat := (bs.getD i 0).toNat

/-- A 2-byte little-endian field. -/
def u16 (bs : List Byte) (i : Nat) : Nat := u8 bs i + 256 * u8 bs (i + 1)

/-- A 4-byte little-endian field. -/
def u32 (bs : List Byte) (i : Nat) : Nat := u16 bs i + 65536 * u16 bs (i + 2)

/-- A 1-byte two's complement field. -/
def s8 (bs : List Byte) (i : Nat) : Int := (bs.getD i 0).toInt

/-- A 2-byte little-endian two's complement field. -/
def s16 (bs : List Byte) (i : Nat) : Int := (BitVec.ofNat 16 (u16 bs i)).toInt

/-- A 4-byte little-endian two's complement field. -/
def s32 (bs : List Byte) (i : Nat) : Int := (BitVec.ofNat 32 (u32 bs i)).toInt

/-- Bit `k` of byte `i`. -/
def bitAt (bs : List Byte) (i k : Nat) : Bool := (bs.getD i 0).getLsbD k

/-- A flag byte with no bit assigned: set when any bit is 1 (R175). -/
def flagAt (bs : List Byte) (i : Nat) : Bool := bs.getD i 0 != 0

/-- `n` bytes of a record from byte `i`. -/
def slice (bs : List Byte) (i n : Nat) : List Byte := (bs.drop i).take n

/-- One byte holding `n` modulo 256. -/
def byte (n : Nat) : Byte := BitVec.ofNat 8 n

/-- A flag as a byte the part writes: 1 when set, 0 when clear. R175 says how a flag byte is read, and not which nonzero
value the part writes for a set one; 1 is the model's (log entry 62). -/
def flagByte (b : Bool) : Byte := if b then 1 else 0

/-- `n` as 2 little-endian bytes. -/
def le16 (n : Nat) : List Byte := [byte n, byte (n / 256)]

/-- `n` as 4 little-endian bytes. -/
def le32 (n : Nat) : List Byte := [byte n, byte (n / 256), byte (n / 65536), byte (n / 16777216)]

/-- A signed quantity as 2 little-endian bytes. -/
def le16i (x : Int) : List Byte := le16 (BitVec.ofInt 16 x).toNat

/-- A signed quantity as 4 little-endian bytes. -/
def le32i (x : Int) : List Byte := le32 (BitVec.ofInt 32 x).toNat

/-- `n` as 2 big-endian bytes. -/
def be16 (n : Nat) : List Byte := (le16 n).reverse

/-- A signed quantity as 2 big-endian bytes. -/
def be16i (x : Int) : List Byte := (le16i x).reverse

/-- A signed quantity as 4 big-endian bytes. -/
def be32i (x : Int) : List Byte := (le32i x).reverse

/-- `bs` cut or filled with zeros to `n` bytes. -/
def padTo (n : Nat) (bs : List Byte) : List Byte := (bs ++ List.replicate n 0).take n

/-- A signed quantity as a 32-bit result word. -/
def wordOfInt (x : Int) : Nat := (BitVec.ofInt 32 x).toNat

/-- `k` and the values of a list updated at index `k`; an index beyond the list changes nothing. -/
def updateAt {α : Type} (l : List α) (k : Nat) (f : α → α) : List α := l.modify k f

/-! Result codes (R176's table order, manual section 1.4.3): the values 0 to 18. -/

def rcOk : Nat := 0
def rcClamped : Nat := 1
def rcBadKind : Nat := 2
def rcBadArgument : Nat := 3
def rcBusy : Nat := 4
def rcNotPresent : Nat := 5
def rcHoldLimit : Nat := 6
def rcNotHeld : Nat := 7
def rcNoBuffer : Nat := 8
def rcAborted : Nat := 9
def rcZeroRefused : Nat := 16
def rcStillActive : Nat := 17
def rcStillLost : Nat := 18

/-- The result code of a head bus outcome (R155). -/
def outcomeCode : BusOutcome → Nat
  | .success => 0
  | .noAckAddr => 10
  | .noAckData => 11
  | .arbLost => 12
  | .busStuck => 13
  | .busyTimeout => 14
  | .busFault => 15

/-! Request kinds (manual section 12.3). -/

def kLampSet : Nat := 0x01
def kExposureSet : Nat := 0x02
def kChainageRun : Nat := 0x03
def kChainageCalibrate : Nat := 0x04
def kMarkSet : Nat := 0x05
def kDriveHold : Nat := 0x06
def kFrameHold : Nat := 0x07
def kFrameRelease : Nat := 0x08
def kSnapshot : Nat := 0x09
def kOverlayWrite : Nat := 0x0A
def kOverlayStyle : Nat := 0x0B
def kFontLoad : Nat := 0x0C
def kBusTransfer : Nat := 0x0D
def kPollSet : Nat := 0x0E
def kBusReset : Nat := 0x0F
def kUplinkSend : Nat := 0x10
def kLatchClear : Nat := 0x11

/-- One of the seventeen request kinds (R18). -/
def knownKind (kind : Nat) : Bool := 1 ≤ kind && kind ≤ 0x11

/-- The argument bytes that a kind assigns (manual section 12.3), as (first, count); none for an unknown kind. -/
def argumentFields : Nat → List (Nat × Nat)
  | 0x01 => [(0, 6)]
  | 0x02 => [(0, 1), (2, 23), (28, 8)]
  | 0x03 => [(0, 2)]
  | 0x04 => [(0, 2), (4, 12)]
  | 0x05 => [(0, 12)]
  | 0x06 => [(0, 2)]
  | 0x07 => [(0, 4)]
  | 0x08 => [(0, 4)]
  | 0x0A => [(0, 46)]
  | 0x0B => [(0, 48)]
  | 0x0C => [(0, 2), (4, 4)]
  | 0x0D => [(0, 28)]
  | 0x0E => [(0, 7)]
  | 0x10 => [(0, 2), (4, 32)]
  | 0x11 => [(0, 1), (4, 4)]
  | _ => []

/-- A kind uses the argument byte at this offset; the others are not read (R18, R175). -/
def usesArgument (kind i : Nat) : Bool := (argumentFields kind).any fun f => f.1 ≤ i && i < f.1 + f.2

end Sys2Proof.Machine
end

