-- ==== Sys2Proof/Machine/Events.lean ====
section
/-! DEFINITION. The 24 event kinds with their codes, source units and payloads (manual sections 11.3 and 12.4). A
block decides on an event; the list engine writes it (`emit`, Machine/Ops.lean). -/

namespace Sys2Proof.Machine

/-- Source units of events (manual section 12.4). -/
inductive SourceUnit where
  | list | capture | playout | overlay | lamp | exposure | chainage | link | headBus | still
  deriving DecidableEq, Repr

/-- The code of a source unit. -/
def SourceUnit.code : SourceUnit → Nat
  | .list => 0 | .capture => 1 | .playout => 2 | .overlay => 3 | .lamp => 4
  | .exposure => 5 | .chainage => 6 | .link => 7 | .headBus => 8 | .still => 9

/-- An event a block hands to the list engine: kind code, source unit and payload bytes. -/
structure Event where
  kind : Nat
  source : SourceUnit
  payload : List Byte
  deriving DecidableEq, Repr

/-- The code of a link state in event payloads. -/
def LinkState.code : LinkState → Nat
  | .down => 0 | .up => 1 | .lost => 2

namespace Event

def mark (last : Int) (n : Nat) (x : Int) : Event := ⟨0, .chainage, le32i last ++ le32 n ++ le32i x⟩
def stopReached (target x : Int) : Event := ⟨1, .chainage, le32i target ++ le32i x⟩
def chainageResync (before cand : Int) (count : Word) : Event :=
  ⟨2, .chainage, le32i before ++ le32i cand ++ le32 count.toNat⟩
/-- Cause ENCODER_FAULT 0, LINK_LOST 1. -/
def chainageHeld (linkLost : Bool) : Event := ⟨3, .chainage, [flagByte linkLost]⟩
def chainageResumed (x : Int) (count : Word) : Event := ⟨4, .chainage, le32i x ++ le32 count.toNat⟩
def linkUp (left : LinkState) (kind : Byte) : Event := ⟨5, .link, [byte left.code, kind]⟩
def linkLost (left : LinkState) (silenceMs : Nat) : Event := ⟨6, .link, byte left.code :: le16 silenceMs⟩
def linkMessage (kind : Byte) (payload : List Byte) : Event :=
  ⟨7, .link, kind :: byte payload.length :: payload⟩
def surfaceHold (kind : Byte) (before after : Bool) : Event :=
  ⟨8, .chainage, [kind, flagByte before, flagByte after]⟩
def captureStall (last : Word) (limit : Nat) (los : Bool) : Event :=
  ⟨9, .playout, le32 last.toNat ++ [byte limit, flagByte los]⟩
def captureResumed (seq : Word) (prior : Nat) : Event := ⟨10, .playout, le32 seq.toNat ++ [byte prior]⟩
/-- 0xFF stands for a pin that no store has (R24). -/
def captureDeferred (seq : Word) (held playPin stillPin : Nat) : Event :=
  ⟨11, .capture, le32 seq.toNat ++ [byte held, byte playPin, byte stillPin]⟩
def sensorLos (seq : Word) : Event := ⟨12, .capture, le32 seq.toNat⟩
def sensorRestored (seq : Word) : Event := ⟨13, .capture, le32 seq.toNat⟩
def thermalCut (t tCut : Int) : Event := ⟨14, .lamp, le16i t ++ le16i tCut⟩
def thermalRestore (t : Int) : Event := ⟨15, .lamp, le16i t⟩
def budgetClamp (b wanted applied : Nat) : Event := ⟨16, .lamp, le16 b ++ le16 wanted ++ le16 applied⟩
def budgetChanged (old new : Nat) (down : Bool) : Event := ⟨17, .lamp, le16 old ++ le16 new ++ [flagByte down]⟩
def tempStale (cause : StaleCause) (age : Nat) : Event :=
  ⟨18, .lamp, (match cause with | .noEntry => 0 | .failures => 1 | .age => 2) :: le16 age⟩
/-- Cause STUCK_RECOVERY 0, RESET_RECOVERY 1. -/
def busFault (afterReset clk dat : Bool) : Event :=
  ⟨19, .headBus, [flagByte afterReset, flagByte clk, flagByte dat]⟩
def pollFailing (entry address : Nat) (o : BusOutcome) : Event :=
  ⟨20, .headBus, [byte entry, byte address, byte (outcomeCode o)]⟩
def gainWriteFailed (value inEffect : Nat) (o : BusOutcome) : Event :=
  ⟨21, .exposure, le16 value ++ le16 inEffect ++ [byte (outcomeCode o)]⟩
/-- Causes QUEUE_FULL 0, NOT_RUNNING 1, FRAME_LOST 2, NO_EMPTY 3, CAPACITY 4, ABORTED 5; origins MARK 0, STOP 1.
Payload byte 3 is not assigned and is 0 (R175). -/
def stillMissed (cause : Nat) (origin : Nat) (entry : Nat) (seq : Word) : Event :=
  ⟨22, .still, [byte cause, byte origin, byte entry, 0] ++ le32 seq.toNat⟩
def listFault (index lap slotLap : Nat) : Event := ⟨23, .list, le16 index ++ [byte lap, byte slotLap]⟩

end Event

end Sys2Proof.Machine
end

