-- ==== Sys2Proof/Machine/Lamp.lean ====
section
/-! DEFINITION. The lamp unit's arithmetic (manual chapter 5): currents, the ceiling, the lamp update and what a
temperature report does. Each function answers the unit's new state and the events it hands to the list engine; no
function here touches memory. -/

namespace Sys2Proof.Machine

/-- The largest level at or below `n` that satisfies `fits`; 0 when none does. -/
def largestLevel (fits : Nat → Bool) : Nat → Nat
  | 0 => 0
  | n + 1 => if fits (n + 1) then n + 1 else largestLevel fits n

/-- cur(level), in mA rounded up (R78). -/
def lampCurrent (iFull level : Nat) : Nat := ceilDiv (level * iFull) 1023

/-- The average current of a channel at a level under a duty pair (R78). -/
def averageCurrent (t tCap : Nat) (c : Channel) (level : Nat) : Nat :=
  match c.mode with
  | .off => 0
  | .steady => lampCurrent c.iFull level
  | .strobe => ceilDiv (lampCurrent c.iFull level * t) tCap

/-- RUNNING or HALTING: lamps at applied levels, playout selecting (R83, R54). -/
def PartState.lit (p : PartState) : Bool := p == .running || p == .halting

/-- HALTED or FAULTED: standby levels (R91). -/
def PartState.standby (p : PartState) : Bool := p == .halted || p == .faulted

/-- The level the AUTO channels want (R83, R90). -/
def wantedAuto (stillLevel : Nat) (l : Lamp) : Nat := if l.boost then stillLevel else l.wantedL

/-- The wanted level of a channel (R83). -/
def wantedLevel (part : PartState) (stillLevel : Nat) (l : Lamp) (c : Channel) : Nat :=
  if c.mode = .off then 0
  else if part.lit then (match c.control with | .manual => c.manual | .auto => wantedAuto stillLevel l)
  else if part.standby then c.standby
  else 0

/-- The wanted level after step 1 of R84: brought down to the ceiling. -/
def cappedLevel (part : PartState) (stillLevel : Nat) (l : Lamp) (c : Channel) : Nat :=
  min (wantedLevel part stillLevel l c) l.ceiling

/-- The channels served one by one in step 2 of R84. -/
def servedChannel (part : PartState) (c : Channel) : Bool :=
  c.mode != .off && (part.standby || (part.lit && c.control == .manual))

/-- The channels that take L_app in step 3 of R84. -/
def autoChannel (part : PartState) (c : Channel) : Bool :=
  c.mode != .off && part.lit && c.control == .auto

/-- Step 2 of R84: the levels of the served channels in channel order, given what is spent so far and whether an
earlier channel was reduced. Channels not served are listed with level 0. A channel with I_full 0 keeps its level
(log entry 13). -/
def serveChannels (part : PartState) (t tCap budget : Nat) :
    List (Channel × Nat) → Nat → Bool → List Nat
  | [], _, _ => []
  | (c, w) :: rest, spent, cutOff =>
    if servedChannel part c then
      let lvl := if cutOff && c.iFull != 0 then 0
        else largestLevel (fun n => decide (spent + averageCurrent t tCap c n ≤ budget)) w
      lvl :: serveChannels part t tCap budget rest (spent + averageCurrent t tCap c lvl) (cutOff || lvl < w)
    else 0 :: serveChannels part t tCap budget rest spent cutOff

/-- The total average current of channels at given levels (R78). -/
def totalCurrent (t tCap : Nat) : List Channel → List Nat → Nat
  | c :: cs, n :: ns => averageCurrent t tCap c n + totalCurrent t tCap cs ns
  | _, _ => 0

/-- The current of all AUTO channels at one level. -/
def autoCurrent (part : PartState) (t tCap : Nat) (cs : List Channel) (n : Nat) : Nat :=
  (cs.map fun c => if autoChannel part c then averageCurrent t tCap c n else 0).sum

/-- What a lamp update computes: levels in channel order, L_b, L_app. -/
structure LampLevels where
  levels : List Nat
  cap : Nat
  lApp : Nat
  deriving DecidableEq, Repr

/-- Steps 1 to 3 of R84 and the budget cap of R86, from the records, B, C and the duty pair alone. An AUTO channel with
I_full 0 keeps its capped wanted level where the others take L_app (log entry 13). -/
def lampLevels (part : PartState) (stillLevel : Nat) (l : Lamp) : LampLevels :=
  let pairs := l.channels.map fun c => (c, cappedLevel part stillLevel l c)
  let served := serveChannels part l.dutyT l.dutyCap l.budget pairs 0 false
  let spent := totalCurrent l.dutyT l.dutyCap l.channels served
  let cap := if part.lit then
      largestLevel (fun n => decide (spent + autoCurrent part l.dutyT l.dutyCap l.channels n ≤ l.budget)) 1023
    else 0
  let lApp := if part.lit then min (min (wantedAuto stillLevel l) l.ceiling) cap else 0
  let auto := fun c : Channel => if c.iFull = 0 then cappedLevel part stillLevel l c else lApp
  { levels := List.zipWith (fun c n => if autoChannel part c then auto c else n) l.channels served, cap, lApp }

/-- A boost whose still level the ceiling brings down, with a channel to light at it (R90; log entry 36). -/
def boostCut (part : PartState) (stillLevel : Nat) (l : Lamp) : Bool :=
  l.boost && decide (l.ceiling < stillLevel) && l.channels.any (autoChannel part)

/-- The lamp update (R83 to R86): applied levels, L_b, L_app, total current and the clamp flag, with event
BUDGET_CLAMP when the update sets the flag while it was clear. A channel is reduced by the budget when its level is
below its capped wanted level (R85); a boost that the ceiling brings down counts as well (R90; log entry 36). -/
def lampUpdate (part : PartState) (stillLevel : Nat) (l : Lamp) : Lamp × List Event :=
  let r := lampLevels part stillLevel l
  let capped := l.channels.map (cappedLevel part stillLevel l)
  let total := totalCurrent l.dutyT l.dutyCap l.channels r.levels
  let reduced := (List.zipWith (fun a w => decide (a < w)) r.levels capped).any id || boostCut part stillLevel l
  ({ l with
      channels := List.zipWith (fun c n => { c with applied := n }) l.channels r.levels
      cap := r.cap, lApp := r.lApp, total := total, clamp := reduced },
   if reduced && !l.clamp then
     [Event.budgetClamp l.budget (totalCurrent l.dutyT l.dutyCap l.channels capped) total]
   else [])

/-- The thermal ceiling (R82), by the first case that applies. -/
def thermalCeiling (cfg : Cfg) (l : Lamp) : Nat :=
  if l.stale then cfg.floor
  else match l.temp with
    | none => cfg.floor
    | some t =>
      if l.cut then 0
      else if t ≤ cfg.tDerate then 1023
      else 1023 - (1023 - cfg.floor) * (t - cfg.tDerate).toNat / (cfg.tCut - cfg.tDerate).toNat

/-- The ceiling recomputed, with a lamp update if it changed (R82). -/
def recomputeCeiling (part : PartState) (cfg : Cfg) (l : Lamp) : Lamp × List Event :=
  if thermalCeiling cfg l = l.ceiling then (l, [])
  else lampUpdate part cfg.stillLevel { l with ceiling := thermalCeiling cfg l }

/-- The cut latch and its event at a fresh reading (R80). -/
def cutLatch (cfg : Cfg) (cut : Bool) (t : Int) : Bool × List Event :=
  if cut then
    if t ≤ cfg.tCut - cfg.hysteresis then (false, [Event.thermalRestore t]) else (true, [])
  else if cfg.tCut ≤ t then (true, [Event.thermalCut t cfg.tCut]) else (false, [])

/-- A successful poll of the TEMPERATURE entry (R80). -/
def lampReading (part : PartState) (cfg : Cfg) (t : Int) (l : Lamp) : Lamp × List Event :=
  let c := cutLatch cfg l.cut t
  let r := recomputeCeiling part cfg
    { l with temp := some t, tempAge := 0, tempFails := 0, stale := false, cut := c.1 }
  (r.1, c.2 ++ r.2)

/-- A stale condition arises: nothing when the flag is set already, else the flag, its event and the ceiling (R81), the
lamp update's event after TEMP_STALE (log entry 9). -/
def lampStale (part : PartState) (cfg : Cfg) (cause : StaleCause) (l : Lamp) : Lamp × List Event :=
  if l.stale then (l, [])
  else
    let r := recomputeCeiling part cfg { l with stale := true }
    (r.1, Event.tempStale cause l.tempAge :: r.2)

/-- A failed poll of the TEMPERATURE entry (R81): the count holds at 255; the fourth makes the reading stale. -/
def lampPollFailed (part : PartState) (cfg : Cfg) (l : Lamp) : Lamp × List Event :=
  let l' := { l with tempFails := min 255 (l.tempFails + 1) }
  if l'.tempFails = 4 then lampStale part cfg .failures l' else (l', [])

/-- The lamp unit's work at an output frame start (R81): the age holds at 65,535; reaching 101 makes it stale. -/
def lampAge (part : PartState) (cfg : Cfg) (l : Lamp) : Lamp × List Event :=
  let l' := { l with tempAge := min 65535 (l.tempAge + 1) }
  if l'.tempAge = 101 then lampStale part cfg .age l' else (l', [])

/-- A POLL_SET has installed the TEMPERATURE entry (R81). -/
def lampEntryCome (l : Lamp) : Lamp := { l with tempPresent := true, tempFails := 0 }

/-- A POLL_SET has removed the TEMPERATURE entry (R81). -/
def lampEntryGone (part : PartState) (cfg : Cfg) (l : Lamp) : Lamp × List Event :=
  lampStale part cfg .noEntry { l with tempPresent := false }

/-- The largest budget a grant can set (R79). -/
def budgetMax : Nat := 12000

/-- A POWER_GRANT taken in RUNNING, HALTING, HALTED or FAULTED (R79). -/
def lampGrant (part : PartState) (cfg : Cfg) (mA : Nat) (l : Lamp) : Lamp × List Event :=
  let b := min budgetMax mA
  if b = l.budget then (l, [])
  else
    let r := lampUpdate part cfg.stillLevel { l with budget := b }
    (r.1, Event.budgetChanged l.budget b (budgetMax < mA) :: r.2)

/-- Steps 1 to 4 of a trigger start (R88): the duty pair, the wanted auto level, the boost, the update, and then the
strobe window opens. -/
def lampTriggerStart (part : PartState) (cfg : Cfg) (p : FramePlan) (l : Lamp) : Lamp × List Event :=
  let r := lampUpdate part cfg.stillLevel
    { l with dutyT := p.t, dutyCap := p.tCap, wantedL := p.level, boost := l.boost || p.boost }
  ({ r.1 with strobe := true }, r.2)

/-- The end of an exposure window (R89): the window closes; an active boost ends with an update. -/
def lampTriggerEnd (part : PartState) (cfg : Cfg) (l : Lamp) : Lamp × List Event :=
  if l.boost then lampUpdate part cfg.stillLevel { l with strobe := false, boost := false }
  else ({ l with strobe := false }, [])

/-- The values a START that passes its checks sets (R75). Levels, L_b and the total stay those of LOADING. -/
def lampTakeConfig (cfg : Cfg) (l : Lamp) : Lamp :=
  let l' : Lamp :=
    { l with
      channels := List.zipWith
        (fun k (c : Channel) => ({ mode := k.mode, control := k.control, iFull := k.iFull, manual := k.manual,
                                   standby := k.standby, applied := c.applied } : Channel))
        cfg.channels l.channels
      dutyT := 1, dutyCap := 1, boost := false, strobe := false, budget := cfg.budget
      temp := none, tempAge := 0, tempFails := 0
      tempPresent := cfg.poll.any fun e => e.enable && e.role == .temperature
      stale := false, cut := false, clamp := false }
  { l' with ceiling := thermalCeiling cfg l' }

/-- The lamp unit at entry to RUNNING (R75, R81, R87): the L of the first plan, duty 1, TEMP_STALE of cause NO_ENTRY
when the configured poll table has no TEMPERATURE entry, and the first update, its event after TEMP_STALE (log entry
9). -/
def lampEnterRunning (cfg : Cfg) (level : Nat) (l : Lamp) : Lamp × List Event :=
  let l1 := { l with wantedL := level, dutyT := 1, dutyCap := 1 }
  let gone := !l1.tempPresent && !l1.stale
  let l2 := if gone then { l1 with stale := true } else l1
  let r := lampUpdate .running cfg.stillLevel { l2 with ceiling := thermalCeiling cfg l2 }
  (r.1, (if gone then [Event.tempStale .noEntry l1.tempAge] else []) ++ r.2)

/-- The lamp unit at a change of part state to `part` (R83, R91): the boost ends outside RUNNING and HALTING; the
window closes in FAULTED. -/
def lampEnter (part : PartState) (cfg : Cfg) (l : Lamp) : Lamp × List Event :=
  lampUpdate part cfg.stillLevel
    { l with boost := l.boost && part.lit, strobe := l.strobe && part.lit }

end Sys2Proof.Machine
end

