-- ==== Sys2Proof/Machine/Exposure.lean ====
section
/-! DEFINITION. The exposure unit (manual chapter 6): the loop's arithmetic, the plan brought within bounds, and the
gain path between the exposure unit and the head bus unit's pending gain update. Nothing here touches memory. -/

namespace Sys2Proof.Machine

/-! ### The loop (R97 to R100) -/

/-- The level, exposure time and gain of a plan. -/
structure Plan where
  level : Nat
  t : Nat
  gain : Nat
  deriving DecidableEq, Repr

/-- |a − b|. -/
def absDiff (a b : Nat) : Nat := (a - b) + (b - a)

/-- The metering mean a run uses: 0 is taken as 1 (R97). -/
def meanUsed (m : Nat) : Nat := max 1 m

/-- The run ends in its dead band (R97 step 1). -/
def inDeadBand (e : Exposure) (mean : Nat) : Bool := absDiff (meanUsed mean) e.target ≤ e.tolerance

/-- The measured product P_meas (R97 step 2). -/
def measuredProduct (r : Report) : Nat := r.level * r.t * r.gain / 256

/-- L_lo (R97 step 4). -/
def lowerLevel (e : Exposure) (lCap : Nat) : Nat := min e.lMin lCap

/-- P_lo (R97 step 4). -/
def lowerProduct (e : Exposure) (lCap : Nat) : Nat :=
  if lowerLevel e lCap = 0 then e.tMin else lowerLevel e lCap * e.tMin

/-- P_hi (R97 step 4). -/
def upperProduct (e : Exposure) (lCap : Nat) : Nat := lCap * e.tMax * e.gMax / 256

/-- P_new (R98): the target product, the damped correction truncating toward zero, the bounds. -/
def newProduct (e : Exposure) (lCap mean pMeas : Nat) : Nat :=
  let target := pMeas * e.target / meanUsed mean
  let moved : Int := pMeas + Int.tdiv (((target : Int) - pMeas) * e.damping) 16
  (clampInt (lowerProduct e lCap) (upperProduct e lCap) moved).toNat

/-- The allocation of a product among L, t and g (R99), by the first case that applies. -/
def allocate (e : Exposure) (lCap p : Nat) : Plan :=
  if lCap = 0 then ⟨0, e.tMax, e.gMax⟩
  else
    let lo := lowerLevel e lCap
    let la := ceilDiv p e.tPref
    if lo ≤ la ∧ la ≤ lCap then ⟨la, e.tPref, 256⟩
    else if la < lo then ⟨lo, max e.tMin (p / lo), 256⟩
    else
      let tb := ceilDiv p lCap
      if tb ≤ e.tMax then ⟨lCap, tb, 256⟩
      else ⟨lCap, e.tMax, min e.gMax (ceilDiv (p * 256) (lCap * e.tMax))⟩

/-- The plan a run of the loop makes from a report under the bound `lCap` (R97 to R99). -/
def loopPlan (e : Exposure) (lCap : Nat) (r : Report) : Plan :=
  if lCap = 0 then ⟨0, e.tMax, e.gMax⟩
  else allocate e lCap (newProduct e lCap r.mean (measuredProduct r))

/-- The bound L_cap of a run (R97 step 3). -/
def loopCap (l : Lamp) (e : Exposure) : Nat := min (min l.ceiling l.cap) e.lMax

/-! ### The gain path (R101 to R105) -/

/-- The exposure unit hands the gain at the end of a run or of an EXPOSURE_SET (R101's table). In HALTING, HALTED and
FAULTED nothing is handed. -/
def handGain (s : State) : State :=
  let e := s.exposure
  let g := e.planG
  if s.part ≠ .running then s
  else match e.gws with
    | .idle =>
      if e.retry || g ≠ e.gainInEffect then
        { s with exposure := { e with gws := .queued, handedGain := some g },
                 bus := { s.bus with pendingGain := some g } }
      else s
    | .queued =>
      if e.handedGain = some g then s
      else if g = e.gainInEffect then
        { s with exposure := { e with gws := .idle, handedGain := none },
                 bus := { s.bus with pendingGain := none } }
      else { s with exposure := { e with handedGain := some g }, bus := { s.bus with pendingGain := some g } }
    | .writing =>
      if e.handedGain = some g then s
      else { s with exposure := { e with handedGain := some g, behind := true },
                    bus := { s.bus with pendingGain := some g } }

/-- At entry to RUNNING an update carrying the plan's gain is handed whatever the gain in effect (R101). -/
def handGainAtEntry (s : State) : State :=
  { s with exposure := { s.exposure with gws := .queued, handedGain := some s.exposure.planG },
           bus := { s.bus with pendingGain := some s.exposure.planG } }

/-- The head bus unit has started the queued update (R101, R150). -/
def gainStarted (v : Nat) (e : Exposure) : Exposure :=
  { e with gws := .writing, handedGain := some v, busGain := v, behind := false }

/-- The exposure unit's state once a write has ended: QUEUED if an update was queued behind it (R102). -/
def afterWrite (e : Exposure) : Exposure :=
  if e.behind then { e with gws := .queued, behind := false }
  else { e with gws := .idle, handedGain := none }

/-- The end of a gain write with its outcome (R102). After a success in RUNNING a plan gain that differs from the
gain in effect is handed at once; after a failure the update stays pending. -/
def gainWriteEnd (v : Nat) (o : BusOutcome) (s : State) : State × List Event :=
  let e := s.exposure
  if o = .success then
    let s' := { s with exposure := afterWrite { e with gainInEffect := v, failures := 0, retry := false } }
    (if s'.exposure.gws = .idle then handGain s' else s', [])
  else
    let e' := { e with failures := min 255 (e.failures + 1), retry := true }
    ({ s with exposure := afterWrite e' },
     if e'.failures = 3 then [Event.gainWriteFailed v e.gainInEffect o] else [])

/-- A BUS_RESET has dropped the pending gain update (R104): a failure that wrote nothing and is not counted. -/
def gainDropped (s : State) : State :=
  match s.bus.pendingGain with
  | none => s
  | some _ =>
    let e := s.exposure
    let e' := if e.gws = .writing then { e with handedGain := some e.busGain, behind := false, retry := true }
      else { e with gws := .idle, handedGain := none, retry := true }
    { s with exposure := e', bus := { s.bus with pendingGain := none } }

/-- At entry to HALTING the update that has not started is withdrawn (R105; log entry 30). -/
def withdrawGain (s : State) : State :=
  let e := s.exposure
  let e' := match e.gws with
    | .idle => e
    | .queued => { e with gws := .idle, handedGain := none }
    | .writing => { e with handedGain := some e.busGain, behind := false }
  { s with exposure := e', bus := { s.bus with pendingGain := none } }

/-! ### The report of a completed frame (R96, R97, R100) -/

/-- The loop runs on the reported frame (R96). -/
def loopEligible (s : State) (r : Report) : Bool :=
  s.part == .running && s.exposure.mode == .auto && !r.boost && !r.los

/-- The exposure unit takes a completion report (R96): it is stored; an eligible frame runs the loop, which replaces
the plan and hands the gain, or ends in its dead band, where the gain is handed again if the retry flag is set. -/
def exposureReport (r : Report) (s : State) : State :=
  let s := { s with exposure := { s.exposure with last := some r } }
  if loopEligible s r then
    if inDeadBand s.exposure r.mean then
      if s.exposure.retry then handGain s else s
    else
      let c := loopCap s.lamp s.exposure
      let p := loopPlan s.exposure c r
      let s := handGain { s with exposure :=
        { s.exposure with planL := p.level, planT := p.t, planG := p.gain, lCap := c } }
      { s with exposure := { s.exposure with retry := false } }
  else s

/-! ### Parameters (R93 to R95) -/

/-- The values a START that passes its checks sets (R93). -/
def exposureTakeConfig (cfg : Cfg) (e : Exposure) : Exposure :=
  { e with
    mode := if cfg.expAuto then .auto else .manual
    tMin := cfg.tMin, tPref := cfg.tPref, tMax := cfg.tMax, gMax := cfg.gMax, lMin := cfg.lMin, lMax := cfg.lMax
    target := cfg.target, tolerance := cfg.tolerance, damping := cfg.damping
    planL := cfg.initL, planT := cfg.initT, planG := cfg.initG, lCap := cfg.lMax
    gws := .idle, handedGain := none, behind := false, retry := false, failures := 0 }

end Sys2Proof.Machine
end

