-- ==== Sys2Proof/Machine/Flags.lean ====
section
/-! DEFINITION. Flags and the views made of them: the attention bits and ATTN (R4), the drive hold reason set and
HOLD_OUT (R122), the held state of the chainage (R113), the flag bytes of records, and what the host reads from the
five registers (R2 to R4, manual section 12.1). -/

namespace Sys2Proof.Machine

/-! Attention bits (manual section 12.1). -/

def attResult : BitVec 4 := 1
def attEvent : BitVec 4 := 2
def attStill : BitVec 4 := 4
def attFault : BitVec 4 := 8

/-- ATTN is high while a bit is set in both ATTENTION and ATTENTION_MASK (R4). -/
def attn (s : State) : Bool := s.attention &&& s.attentionMask != 0

/-- The reason set is non-empty. -/
def HoldReasons.any (r : HoldReasons) : Bool := r.notRunning || r.stopTarget || r.linkLost || r.surface || r.host

/-- The reason set as one byte, bits 0..4 in the order of R122's table. -/
def HoldReasons.code (r : HoldReasons) : Nat :=
  (if r.notRunning then 1 else 0) + (if r.stopTarget then 2 else 0) + (if r.linkLost then 4 else 0)
    + (if r.surface then 8 else 0) + (if r.host then 16 else 0)

/-- HOLD_OUT is high exactly when the reason set is non-empty (R122). -/
def holdOut (s : State) : Bool := s.chainage.reasons.any

/-- TRIG is high from trigger start to trigger end (R25, R26). -/
def trigPin (s : State) : Bool := s.capture.trig == .exposing

/-- Capture, the stamp and HEAD_STATUS treat the chainage as held (R113). -/
def Chainage.isHeld (c : Chainage) : Bool := c.run == .stopped || c.held

/-- Part state codes (manual section 12.1). -/
def PartState.code : PartState → Nat
  | .off => 0 | .loading => 1 | .running => 2 | .halting => 3 | .halted => 4 | .faulted => 5

/-- List state codes. -/
def ListState.code : ListState → Nat
  | .active => 0 | .faulted => 1

/-- What the host reads at a register offset; an offset with no register reads 0 (log entry 24). -/
def readRegister (s : State) (offset : Nat) : Word :=
  match offset with
  | 0x00 => Config.ident
  | 0x04 => s.workBase
  | 0x08 => BitVec.ofNat 32 (s.part.code + 256 * s.list.listState.code)
  | 0x0C => s.attention.setWidth 32
  | 0x10 => s.attentionMask.setWidth 32
  | _ => 0

/-- The PWM of a lamp output runs: the level it is driven at, none when the output is low (R77). -/
def lampPin (s : State) (i : Nat) : Option Nat :=
  match s.lamp.channels[i]? with
  | none => none
  | some c =>
    if s.part = .off ∨ s.part = .loading then none
    else match c.mode with
      | .off => none
      | .steady => some c.applied
      | .strobe => if s.lamp.strobe then some c.applied else none

/-- Frame header flags (manual section 12.6): STILL, BURNED, CHAIN_HELD, CHAIN_SAT. -/
def headerFlags (still burned held sat : Bool) : Byte :=
  byte ((if still then 1 else 0) + (if burned then 2 else 0) + (if held then 4 else 0) + (if sat then 8 else 0))

/-- Lamp flags of the status record: stale, cut latch, budget clamp. -/
def lampFlags (l : Lamp) : Byte :=
  byte ((if l.stale then 1 else 0) + (if l.cut then 2 else 0) + (if l.clamp then 4 else 0))

/-- Exposure flags of the status record: retry, last report present. -/
def exposureFlags (e : Exposure) : Byte :=
  byte ((if e.retry then 1 else 0) + (if e.last.isSome then 2 else 0))

/-- Chainage flags of the status record. -/
def chainageFlags (c : Chainage) : Byte :=
  byte ((if c.held then 1 else 0) + (if c.saturated then 2 else 0) + (if c.originValid then 4 else 0)
    + (if c.fired then 8 else 0) + (if c.nextMark.isSome then 16 else 0) + (if c.stopTarget.isSome then 32 else 0))

/-- HEAD_STATUS flags (manual section 12.6): held, saturated, stall latch. -/
def headStatusFlags (s : State) : Byte :=
  byte ((if s.chainage.isHeld then 1 else 0) + (if s.chainage.saturated then 2 else 0)
    + (if s.playout.stallLatch then 4 else 0))

end Sys2Proof.Machine
end

