-- ==== Sys2Proof/Machine/Memory.lean ====
section
/-! DEFINITION. Board memory as a canonical list of (address, byte) pairs: addresses strictly rising, no entry equal
to what an unlisted address reads as. An unlisted address reads 0 (log entry 6). -/

namespace Sys2Proof.Machine.Memory

/-- What an address that no entry lists reads as. DESIGN CHOICE (unsafe), log entry 6. -/
def unlisted : Byte := 0

/-- The byte at an address. -/
def read : List Host.Cell → Nat → Byte
  | [], _ => unlisted
  | (k, v) :: m, a => if a = k then v else read m a

/-- The memory with one byte changed; writing what an unlisted address reads as removes the entry. -/
def write : List Host.Cell → Nat → Byte → List Host.Cell
  | [], a, b => if b = unlisted then [] else [(a, b)]
  | (k, v) :: m, a, b =>
    if a < k then (if b = unlisted then (k, v) :: m else (a, b) :: (k, v) :: m)
    else if a = k then (if b = unlisted then m else (a, b) :: m)
    else (k, v) :: write m a b

/-- `n` bytes from an address on. -/
def readList (m : List Host.Cell) (a : Nat) : Nat → List Byte
  | 0 => []
  | n + 1 => read m a :: readList m (a + 1) n

/-- The canonical form: every address is above `lo`, addresses rise strictly, no entry is redundant. -/
def wfFrom : Nat → List Host.Cell → Bool
  | _, [] => true
  | lo, (k, v) :: m => lo ≤ k && v != unlisted && wfFrom (k + 1) m

/-- The canonical form of a whole memory. -/
def wf (m : List Host.Cell) : Bool := wfFrom 0 m

end Sys2Proof.Machine.Memory
end

