-- ==== Sys2Proof/Machine/Ops.lean ====
section
/-! DEFINITION. The shared operations: time, attention bits, entry to FAULTED (R10), the memory master port, writing
an event (R167 to R170), completing a request (R13, R17), lamp changes with their events, and the end of a HALT. -/

namespace Sys2Proof.Machine

/-! ### Time and attention -/

/-- Time reaches `moment`; it never goes back (log entry 2). -/
def advance (moment : Nat) (s : State) : State := { s with now := max s.now moment }

/-- The part sets attention bits (R4). -/
def setAttention (bits : BitVec 4) (s : State) : State := { s with attention := s.attention ||| bits }

/-- `k`, unless the part is in FAULTED: an action that a memory error has cut goes no further (R10). -/
def onward (s : State) (k : State → State) : State := if s.part = .faulted then s else k s

/-! ### The end of a poll (R152) -/

/-- The temperature in half-degrees that two bytes of a reading give (R152). -/
def temperatureOf (read : List Byte) : Int :=
  Int.fdiv (BitVec.ofNat 16 (256 * u8 read 0 + u8 read 1)).toInt 128

/-- A poll that succeeded: its slot takes the bytes; a TEMPERATURE reading goes to the lamp unit. -/
def pollSucceeded (j : Nat) (read : List Byte) (s : State) : State × List Event :=
  let s' := { s with bus := { s.bus with polls := updateAt s.bus.polls j fun p =>
    { p with slot := { held := true, bytes := read, age := 0, failures := 0 } } } }
  if (s.bus.polls.getD j {}).entry.role = .temperature then
    let r := lampReading s.part s.cfg (temperatureOf read) s.lamp
    ({ s' with lamp := r.1 }, r.2)
  else (s', [])

/-- A poll that failed: its failures increase, holding at 255; the fourth is reported; a TEMPERATURE failure goes to
the lamp unit, whose events come after the head bus unit's (log entry 39). -/
def pollFailed (j : Nat) (o : BusOutcome) (s : State) : State × List Event :=
  let p := s.bus.polls.getD j {}
  let n := min 255 (p.slot.failures + 1)
  let s' := { s with bus := { s.bus with polls := updateAt s.bus.polls j fun p =>
    { p with slot := { p.slot with failures := n } } } }
  let ev := if n = 4 then [Event.pollFailing j p.entry.address o] else []
  if p.entry.role = .temperature then
    let r := lampPollFailed s.part s.cfg s.lamp
    ({ s' with lamp := r.1 }, ev ++ r.2)
  else (s', ev)

/-- The end of a poll (R152): discarded when a POLL_SET has replaced the entry since it was taken into hand. -/
def pollEnd (j : Nat) (replaced : Bool) (o : BusOutcome) (read : List Byte) (s : State) : State × List Event :=
  if replaced then (s, [])
  else if o = .success then pollSucceeded j read s
  else pollFailed j o s

/-! ### Entry to FAULTED (R10), block by block. No memory access and no event. -/

/-- A memory error in LOADING with a configuration in force starts the output timer and the silence timer (R41, R126). -/
def startsTimers (s : State) : Bool := s.loading.isSome && s.cfgTaken

/-- The list engine stops (R10, R14): the request in hand receives no completion. -/
def ListEngine.faulted (l : ListEngine) : ListEngine :=
  { l with scanning := false, pollTimer := none, handed := none, resyncWaiting := false }

/-- The capture unit stops at once (R39). -/
def Capture.faulted (c : Capture) : Capture := { c with trig := .idle, plan := none, deadline := none, frame := none }

/-- The rest of a period is fill without overlay; where no picture is emitted none begins (R55). -/
def Video.faulted : Video → Video
  | .none => .none
  | .fill _ => .fill false
  | .store _ => .fill false

/-- Playout stops reading memory (R55), and from LOADING its timer starts (R41). -/
def faultPlayout (s : State) : Playout :=
  { s.playout with
    shown := none, video := s.playout.video.faulted
    timer := if startsTimers s then some (s.now + 1000000 / s.cfg.cadence) else s.playout.timer }

/-- The playout pin is dropped without a report (R55). -/
def dropPlayPins (ring : List RingEntry) : List RingEntry := ring.map fun e => { e with playPin := false }

/-- The lamps go to standby levels (R91); BUDGET_CLAMP is not written. -/
def faultLamp (s : State) : Lamp := (lampEnter .faulted s.cfg s.lamp).1

/-- Host messages waiting leave the uplink queue without completion (R138), and from LOADING the silence timer starts,
but in LOST (R126; log entry 15). -/
def faultLink (s : State) : Link :=
  { s.link with
    queue := s.link.queue.filter fun m => m.host.isNone
    silence := if startsTimers s then
        (if s.link.state = .lost then none else some (s.now + s.cfg.silenceMs * 1000))
      else s.link.silence }

/-- The drive hold reason NOT_RUNNING is present or absent (R122). -/
def Chainage.setNotRunning (b : Bool) (c : Chainage) : Chainage := { c with reasons := { c.reasons with notRunning := b } }

/-- The transaction in hand leaves the bus, which is IDLE (R157). -/
def Bus.idled (b : Bus) : Bus := { b with state := .idle, busyTimer := none, inHand := none }

/-- A transaction waiting in WAIT_FREE ends without reaching the bus (R157). -/
def faultBus (s : State) : State :=
  if s.bus.state = .waitFree then
    match s.bus.inHand with
    | none => { s with bus := s.bus.idled }
    | some t => match t.owner with
      | .gain v => (gainWriteEnd v .busFault { s with bus := s.bus.idled }).1
      | .poll j replaced => (pollEnd j replaced .busFault [] { s with bus := s.bus.idled }).1
      | .host _ => { s with bus := { s.bus.idled with queue := s.bus.queue.tail } }
  else s

/-- Every block but the head bus unit at entry to FAULTED: NOT_RUNNING is present (R122), FAULT is set (R10), the still
copy stops (R166). -/
def faultBlocks (s : State) : State :=
  { s with
    part := .faulted
    loading := none
    attention := s.attention ||| attFault
    chainage := s.chainage.setNotRunning true
    list := s.list.faulted
    capture := s.capture.faulted
    playout := faultPlayout s
    ring := dropPlayPins s.ring
    lamp := faultLamp s
    still := { s.still with copy := none }
    link := faultLink s }

/-- Entry to FAULTED from LOADING, RUNNING, HALTING or HALTED (R10). In OFF and FAULTED nothing is left to stop. -/
def enterFaulted (s : State) : State :=
  if s.part = .off ∨ s.part = .faulted then s else faultBus (faultBlocks s)

/-! ### The memory master port -/

/-- The board answers an access to this address without an error: a 32-bit address in no error range (log entry 7). -/
def portOk (errors : List (Nat × Nat)) (a : Nat) : Bool :=
  a < 4294967296 && errors.all fun r => !(r.1 ≤ a && a < r.1 + r.2)

/-- The part may use the port: not in OFF (R1), not in FAULTED (R10). -/
def portOpen (s : State) : Bool := !(s.part == .off || s.part == .faulted)

/-- Bytes written in order from an address on; the first that ends with an error response puts the part in FAULTED
and ends the write (R10). -/
def writeFrom : Nat → List Byte → State → State
  | _, [], s => s
  | a, b :: bs, s =>
    if portOk s.errors a then writeFrom (a + 1) bs { s with mem := Memory.write s.mem a b }
    else enterFaulted s

/-- A write of the part. -/
def portWrite (a : Nat) (bs : List Byte) (s : State) : State := if portOpen s then writeFrom a bs s else s

/-- A read of the part: none when it ends with an error response. -/
def portRead (a n : Nat) (s : State) : Option (List Byte) :=
  if portOpen s && (List.range n).all fun i => portOk s.errors (a + i) then some (Memory.readList s.mem a n) else none

/-- The bytes of a record of which only some positions are assigned: the others stand as 0. -/
def recordBytes (assigned : Nat → Bool) (mem : List Host.Cell) (a n : Nat) : List Byte :=
  (List.range n).map fun i => if assigned i then Memory.read mem (a + i) else 0

/-- A read of a record by the part: byte positions that the record does not assign are not read (R18, R175). -/
def portReadSome (assigned : Nat → Bool) (a n : Nat) (s : State) : Option (List Byte) :=
  if portOpen s && (List.range n).all fun i => !assigned i || portOk s.errors (a + i) then
    some (recordBytes assigned s.mem a n)
  else none

/-! ### Events (R167 to R170) -/

/-- An event that is not written sets its kind's bit in the missed-event mask (R170). -/
def missEvent (e : Event) (s : State) : State :=
  { s with list := { s.list with missed := s.list.missed ||| BitVec.ofNat 24 (2 ^ e.kind) } }

/-- Bytes 1..47 of an event entry (manual section 12.4). -/
def eventBytes (e : Event) (frames : Word) (x : Int) : List Byte :=
  [byte e.kind, byte e.source.code, byte e.payload.length] ++ le32 frames.toNat ++ le32i x ++ padTo 36 e.payload

/-- The event write cursor one index on (R167). -/
def advanceEventCursor (s : State) : State :=
  if s.list.evIndex + 1 < s.cfg.eventCount then { s with list := { s.list with evIndex := s.list.evIndex + 1 } }
  else { s with list := { s.list with evIndex := 0, evLap := (s.list.evLap + 1) % 4 } }

/-- The entry at the cursor: every field but the lap, then the lap, then the cursor and EVENT (R167). -/
def writeEvent (e : Event) (s : State) : State :=
  let a := s.cfg.eventBase + 48 * s.list.evIndex
  onward (portWrite (a + 1) (eventBytes e s.playout.frames s.chainage.x) s) fun s =>
  onward (portWrite a [byte s.list.evLap] s) fun s =>
  setAttention attEvent (advanceEventCursor s)

/-- The used count of the event list for a read index (R168). -/
def usedCount (s : State) (readIndex : Nat) : Nat :=
  (s.list.evIndex + s.cfg.eventCount - readIndex % s.cfg.eventCount) % s.cfg.eventCount

/-- The list engine takes an event (R168, R169): written, or missed. -/
def emit (e : Event) (s : State) : State :=
  match s.part with
  | .faulted => s
  | .off => missEvent e s
  | .loading => missEvent e s
  | .running | .halting | .halted =>
    match portRead (s.areaBase + 0x280) 4 s with
    | none => enterFaulted s
    | some idx => if usedCount s (u32 idx 0) < s.cfg.eventCount - 1 then writeEvent e s else missEvent e s

/-- Several events in the order their block gives them (R169). -/
def emitAll : List Event → State → State
  | [], s => s
  | e :: es, s => emitAll es (emit e s)

/-- A step of a block that answers its state and its events. -/
def emitting (r : State × List Event) : State := emitAll r.2 r.1

/-- A change of the lamp unit with the events it gives rise to. -/
def lampDo (r : Lamp × List Event) (s : State) : State := emitAll r.2 { s with lamp := r.1 }

/-- The lamp unit's update at entry to the part state now in force (R83, R91). -/
def lampEnterState (s : State) : State := lampDo (lampEnter s.part s.cfg s.lamp) s

/-! ### Completing a request (R13, R17) -/

/-- The writes of a completion, DONE last, and then RESULT. In FAULTED a request receives no completion (R10). -/
def complete (slot code w0 w1 : Nat) (s : State) : State :=
  if s.part = .faulted then s
  else
    onward (portWrite (slot + 3) [byte code] s) fun s =>
    onward (portWrite (slot + 8) (le32 w0 ++ le32 w1) s) fun s =>
    onward (portWrite slot [3] s) fun s =>
    setAttention attResult s

/-! ### The end of a HALT (R8, R9) -/

/-- The drive hold reason NOT_RUNNING follows a change of part state (R122). -/
def setPart (p : PartState) (s : State) : State :=
  { s with part := p, chainage := s.chainage.setNotRunning (p != .running) }

/-- The playout unit gives up its pin and turns to FILL, without a report (R54: the capture unit is in IDLE). -/
def dropPlayPin (s : State) : State :=
  { s with playout := { s.playout with shown := none }, ring := dropPlayPins s.ring }

/-- Entry to HALTED (R9, R54, R91). -/
def enterHalted (s : State) : State := lampEnterState (dropPlayPin (setPart .halted s))

/-- Work of a HALT still in flight (R8). -/
def inFlight (s : State) : Bool :=
  s.list.scanning || s.list.handed.isSome || s.capture.trig == .exposing || s.capture.trig == .readout
    || s.still.copy.isSome || s.bus.inHand.isSome || s.bus.state == .recovery || s.link.sending.isSome

/-- In HALTING, when the last in-flight item has ended, the part enters HALTED (R8). -/
def settleHalt (s : State) : State :=
  if s.part = .halting ∧ inFlight s = false then enterHalted s else s

end Sys2Proof.Machine
end

