-- ==== Sys2Proof/Machine/HeadBus.lean ====
section
/-! DEFINITION. The head bus unit (manual chapter 9): the service order, the ends of transactions, arbitration,
recovery, FAULT, and the commands of the bus. -/

namespace Sys2Proof.Machine

/-! ### Transactions (section 9.3) -/

/-- The bytes the part sends for a transaction, in order: the write address, the write bytes and, when it reads, the
read address (R142). -/
def Txn.sent (t : Txn) : List Byte :=
  byte (t.address * 2) :: t.write ++ (if t.readLen = 0 then [] else [byte (t.address * 2 + 1)])

/-- What stands on the head bus one after another (R142): the part's conditions, a bit that the part sends, a bit that
the device sends, and the ninth clock of a byte. -/
inductive BusSignal where
  | start
  | repeatedStart
  | stop
  /-- A bit of a byte the part sends. -/
  | sends (level : Bool)
  /-- A bit of a byte the device sends. -/
  | receives (level : Bool)
  /-- The ninth clock of a byte the part sent: it has released HB_DAT and reads whether the device holds it low. -/
  | deviceAcks (held : Bool)
  /-- The ninth clock of a byte the part received: it holds HB_DAT low, or leaves it released after the last. -/
  | partAcks (held : Bool)
  deriving DecidableEq, Repr

/-- The bits of a byte in the order of the bus, most significant first (R142). -/
def busBits (b : Byte) : List Bool := (List.range 8).map fun i => b.getLsbD (7 - i)

/-- A byte the part sends, with the device's answer on the ninth clock. -/
def byteSent (b : Byte) (acked : Bool) : List BusSignal := (busBits b).map .sends ++ [.deviceAcks acked]

/-- The bytes the part receives: it acknowledges every one but the last (R142). -/
def bytesReceived : List Byte → List BusSignal
  | [] => []
  | b :: bs => (busBits b).map .receives ++ .partAcks (!bs.isEmpty) :: bytesReceived bs

/-- The write part of a transaction up to its end: the address byte and the write bytes, of which `acked` are
acknowledged and the next, if any is sent, is not (R142). -/
def writeSignals (t : Txn) (acked : Nat) : List BusSignal :=
  .start :: byteSent (byte (t.address * 2)) true ++ (t.write.take acked).flatMap (byteSent · true)
    ++ ((t.write.drop acked).take 1).flatMap (byteSent · false)

/-- Everything on the bus for a transaction that ran from its start condition to its stop condition, by how it ended
(R142): `acked` write bytes acknowledged and `read` received, and for NO_ACK_ADDR whether it was the read address. -/
def Txn.signals (t : Txn) (o : BusEnd) (atRead : Bool) (acked : Nat) (read : List Byte) : List BusSignal :=
  let again := fun held => BusSignal.repeatedStart :: byteSent (byte (t.address * 2 + 1)) held
  let body := match o with
    | .success => writeSignals t acked ++ (if t.readLen = 0 then [] else again true ++ bytesReceived read)
    | .noAckData => writeSignals t acked
    | .noAckAddr =>
      if atRead then writeSignals t t.write.length ++ again false
      else .start :: byteSent (byte (t.address * 2)) false
  body ++ [.stop]

/-- The transaction of a gain update (R156). -/
def gainTxn (cfg : Cfg) (v : Nat) : Txn :=
  { owner := .gain v, address := cfg.sensorAddr, write := [cfg.gainReg, byte (v / 256), byte v], readLen := 0 }

/-- The transaction of a poll (R151). -/
def pollTxn (j : Nat) (e : PollEntry) : Txn :=
  { owner := .poll j false, address := e.address, write := [e.register], readLen := e.length }

/-- The transaction of a host transfer with the write bytes it uses (R154). -/
def hostTxn (h : HostTransfer) (bytes : List Byte) : Txn :=
  { owner := .host h, address := h.address, write := bytes, readLen := h.readLen }

/-! ### The end of a transaction -/

/-- A host transfer's end (R155): it leaves the queue; on OK with a read length above 0 the bytes are written to the
destination first. -/
def hostTransferEnd (h : HostTransfer) (o : BusOutcome) (acked : Nat) (read : List Byte) (s : State) : State :=
  let s := { s with bus := { s.bus with queue := s.bus.queue.tail } }
  if o = .success then
    onward (if h.readLen = 0 then s else portWrite h.dest read s) fun s =>
    complete h.slot rcOk h.readLen acked s
  else complete h.slot (outcomeCode o) 0 acked s

/-- The transaction in hand ends with an outcome, which goes to its owner; the unit enters `next` (R142 to R148).
It has entered it when the owner's event or completion meets a memory error (log entry 34). -/
def txnEnd (next : BusState) (o : BusOutcome) (acked : Nat) (read : List Byte) (s : State) : State :=
  match s.bus.inHand with
  | none => s
  | some t =>
    let s := { s with bus := { s.bus with state := next, busyTimer := none, inHand := none } }
    match t.owner with
    | .gain v => emitting (gainWriteEnd v o s)
    | .poll j replaced => emitting (pollEnd j replaced o read s)
    | .host h => hostTransferEnd h o acked read s

/-! ### The service order (R150) -/

/-- The due poll entry of lowest index. -/
def duePoll (polls : List Poll) : Option Nat := (List.range polls.length).find? fun j => (polls.getD j {}).due

/-- A transaction is taken into hand: retry count 0; WAIT_FREE with the busy timer when the monitor reads BUSY, else
ACTIVE; in FAULT the bus state stays (R150, R145, R147). -/
def takeIntoHand (t : Txn) (s : State) : State :=
  let b := { s.bus with inHand := some t, retries := 0 }
  { s with bus :=
    if b.state = .fault then b
    else if b.monitorBusy then { b with state := .waitFree, busyTimer := some (s.now + s.cfg.busyMs * 1000) }
    else { b with state := .active } }

/-- The oldest host transfer is taken into hand: with BUFFER its write bytes are read now, once (R154). -/
def takeHost (h : HostTransfer) (s : State) : State :=
  if h.buffered then
    match portRead h.buffer h.writeLen s with
    | none => enterFaulted s
    | some bytes => takeIntoHand (hostTxn h bytes) s
  else takeIntoHand (hostTxn h (h.inline.take h.writeLen)) s

/-- The first that applies of: the pending gain update, the due poll of lowest index, the oldest host transfer (R150);
none when no work waits. -/
def takeNext (s : State) : Option State :=
  match s.bus.pendingGain with
  | some v =>
    some (takeIntoHand (gainTxn s.cfg v)
      { s with exposure := gainStarted v s.exposure, bus := { s.bus with pendingGain := none } })
  | none =>
    match duePoll s.bus.polls with
    | some j =>
      some (takeIntoHand (pollTxn j (s.bus.polls.getD j {}).entry)
        { s with bus := { s.bus with polls := updateAt s.bus.polls j fun p => { p with due := false } } })
    | none =>
      match s.bus.queue with
      | [] => none
      | h :: _ => some (takeHost h s)

/-- The unit may take a transaction into hand (R150). -/
def mayTake (s : State) : Bool :=
  s.part == .running && (s.bus.state == .idle || s.bus.state == .fault) && s.bus.inHand.isNone

/-- The unit serves waiting work: in IDLE it takes one transaction into hand; in FAULT each one taken ends at once
with BUS_FAULT and the next is taken (R147), at most `fuel` of them. -/
def serveBus : Nat → State → State
  | 0, s => s
  | fuel + 1, s =>
    if mayTake s then
      match takeNext s with
      | none => s
      | some s' =>
        if s'.bus.state = .fault ∧ s'.bus.inHand.isSome then serveBus fuel (txnEnd .fault .busFault 0 [] s') else s'
    else s

/-- Serving with fuel for all that can wait: one gain update, eight due polls and four host transfers, with an update
handed meanwhile. -/
def busServe (s : State) : State := serveBus 32 s

/-- A transaction ends and the unit looks for waiting work; a HALT may end with it (R150, R157). -/
def txnEndServe (next : BusState) (o : BusOutcome) (acked : Nat) (read : List Byte) (s : State) : State :=
  settleHalt (busServe (txnEnd next o acked read s))

/-! ### Operations of the bus -/

/-- How a transaction that ran on the bus ended, as an outcome. -/
def endOutcome : BusEnd → BusOutcome
  | .success => .success
  | .noAckAddr => .noAckAddr
  | .noAckData => .noAckData

/-- The end is one the transaction in hand can have: a success acknowledges every write byte and reads the whole read
length; NO_ACK_DATA refuses one of the write bytes; NO_ACK_ADDR comes at the write address, with none acknowledged,
or at the read address, with all (R142). -/
def endPossible (t : Txn) (o : BusEnd) (acked : Nat) (read : List Byte) : Bool :=
  match o with
  | .success => acked == t.write.length && read.length == t.readLen
  | .noAckAddr => acked == 0 || (acked == t.write.length && t.readLen != 0)
  | .noAckData => acked < t.write.length

/-- Arbitration is lost (R144, R157): the monitor reads BUSY; below the retry limit the same transaction waits, except
in FAULTED; at the limit it ends ARB_LOST. -/
def loseArbitration (acked : Nat) (s : State) : State :=
  let s := { s with bus := { s.bus with monitorBusy := true } }
  if s.bus.retries < s.cfg.retryLimit ∧ s.part ≠ .faulted then
    { s with bus := { s.bus with retries := s.bus.retries + 1, state := .waitFree,
                                 busyTimer := some (s.now + s.cfg.busyMs * 1000) } }
  else txnEndServe .idle .arbLost acked [] s

/-- Waiting BUS_RESET requests complete with one outcome (R149), in taking order (log entry 41). -/
def completeResets (code : Nat) : List Nat → State → State
  | [], s => s
  | slot :: rest, s => completeResets code rest (complete slot code 0 0 s)

/-! ### The recovery attempt (R146) -/

/-- How a recovery attempt ended: it succeeded, or it failed with these levels of HB_CLK and HB_DAT. -/
inductive Recovery where
  | succeeded
  | failed (clk dat : Bool)
  deriving DecidableEq, Repr

/-- The readings of HB_DAT before the first pulse and after each of at most nine pulses: every one but the last is low
(R146). -/
def readingsPossible (reads : List Bool) : Bool := 1 ≤ reads.length && reads.length ≤ 10 && reads.dropLast.all (!·)

/-- The end of a recovery attempt, from the readings of HB_DAT, whether HB_CLK then stays low beyond the stretch limit, and
HB_DAT as read at the end (R146). A high reading is followed by the stop condition, in which the part holds HB_DAT low
until HB_CLK has risen and then releases it; HB_DAT low after it is a failure (log entry 47). After nine pulses with
HB_DAT low the attempt has failed; before them another pulse is given, which fails only by the clock. None where the
attempt has not ended. -/
def recoveryOf (reads : List Bool) (clkStuck dat : Bool) : Option Recovery :=
  if readingsPossible reads = false then none
  else if reads.getLastD false then
    if clkStuck then some (.failed false false) else if dat then some .succeeded else some (.failed true false)
  else if reads.length = 10 then if clkStuck then none else some (.failed true false)
  else if clkStuck then some (.failed false dat) else none

/-- A recovery attempt ends (R146, R147, R149): IDLE with the monitor FREE, or FAULT with BUS_FAULT; the BUS_RESET
requests waiting complete, all of them out of the
unit before the first completion (log entry 63); waiting work is looked for. -/
def endRecovery (r : Recovery) (s : State) : State :=
  let waiting := s.bus.resets
  let byReset := s.bus.afterReset
  let s := { s with bus := { s.bus with resets := [], afterReset := false } }
  let s := match r with
    | .succeeded => { s with bus := { s.bus with state := .idle, monitorBusy := false } }
    | .failed clk dat => emit (Event.busFault byReset clk dat) { s with bus := { s.bus with state := .fault } }
  let s := completeResets (if r = .succeeded then rcOk else outcomeCode .busFault) waiting s
  settleHalt (busServe s)

/-- A BUS_RESET is handled at once (R148, R149): it joins the attempt of an earlier BUS_RESET; otherwise the work in
hand ends BUS_FAULT, the pending gain update is dropped, and a recovery attempt starts. -/
def busResetOp (slot acked : Nat) (s : State) : State :=
  if s.bus.state = .recovery ∧ s.bus.afterReset then
    { s with bus := { s.bus with resets := s.bus.resets ++ [slot] } }
  else
    let acked := if s.bus.state = .active then acked else 0
    onward (if s.bus.state = .waitFree ∨ s.bus.state = .active then txnEnd .idle .busFault acked [] s else s) fun s =>
    let s := gainDropped s
    { s with bus := { s.bus with retries := 0, state := .recovery, afterReset := true, busyTimer := none,
                                 resets := [slot] } }

/-- At HALT the transfers waiting behind the one in hand complete ABORTED, in taking order (R8, R157). -/
def abortTransfers : List HostTransfer → State → State
  | [], s => s
  | h :: rest, s => onward (complete h.slot rcAborted 0 0 s) (abortTransfers rest)

/-- The host transfer in hand, which stays in the queue until its transaction ends. -/
def transferInHand (b : Bus) : Bool :=
  match b.inHand with
  | some t => (match t.owner with | .host _ => true | .gain _ => false | .poll _ _ => false)
  | none => false

/-- The transfers waiting in the queue, not in hand. -/
def waitingTransfers (b : Bus) : List HostTransfer := if transferInHand b then b.queue.tail else b.queue

/-- Taken but not started transfers end at HALT (R8, R157). All of them leave the queue before the first completion is
written, which the rules leave open (log entry 63). -/
def haltBus (s : State) : State :=
  let waiting := waitingTransfers s.bus
  abortTransfers waiting
    { s with bus := { s.bus with queue := if transferInHand s.bus then s.bus.queue.take 1 else [] } }

/-- One poll entry's countdown at an output frame start in RUNNING and HALTING (R151). -/
def countPoll (p : Poll) : Poll :=
  if p.entry.enable then
    if p.countdown ≤ 1 then { p with countdown := p.entry.period, due := true }
    else { p with countdown := p.countdown - 1 }
  else p

/-- One poll slot's age at an output frame start (R152). -/
def agePoll (p : Poll) : Poll := { p with slot := { p.slot with age := min 65535 (p.slot.age + 1) } }

/-- The head bus unit's work at an output frame start (R151, R152). -/
def busFrame (s : State) : State :=
  let polls := s.bus.polls.map agePoll
  let polls := if s.part.lit then polls.map countPoll else polls
  busServe { s with bus := { s.bus with polls := polls } }

/-- The values a START that passes its checks sets (R140): bus state and monitor are kept. -/
def busTakeConfig (cfg : Cfg) (b : Bus) : Bus :=
  { b with
    inHand := none, retries := 0, busyTimer := none, pendingGain := none, queue := [], resets := []
    polls := cfg.poll.map fun e => { entry := e, countdown := if e.enable then e.period else 0 } }

/-! ### The commands -/

/-- BUS_FOREIGN_START (R141). -/
def execBusForeignStart (s : State) : Host.Outcome State Fault Refusal :=
  .next { s with bus := { s.bus with monitorBusy := true } }

/-- BUS_FOREIGN_STOP (R141, R145): the monitor reads FREE; a wait ends and the transaction is sent. -/
def execBusForeignStop (s : State) : Host.Outcome State Fault Refusal :=
  let b := { s.bus with monitorBusy := false }
  .next { s with bus := if b.state = .waitFree then { b with state := .active, busyTimer := none } else b }

/-- The monitor as it reads after a happening with which a stop condition of the other master may fall together: FREE
after the stop (R141, R145). -/
def monitorAfter (stop : Bool) (s : State) : State :=
  { s with bus := { s.bus with monitorBusy := s.bus.monitorBusy && !stop } }

/-- BUS_BUSY_TIMEOUT (R145). With `stop`, a stop condition falls together with the expiry and the expiry is taken first:
the transaction ends BUS_BUSY_TIMEOUT, and the next one, taken at the return to IDLE (R150) or later, finds the monitor
FREE and goes straight to ACTIVE. How the sender tells that the two fall together is log entry 60. -/
def execBusBusyTimeout (s : State) (stop : Bool := false) : Host.Outcome State Fault Refusal :=
  match s.bus.busyTimer with
  | none => .next s
  | some e =>
    .next (if s.bus.state = .waitFree then txnEndServe .idle .busyTimeout 0 [] (monitorAfter stop (advance e s)) else s)

/-- ARBITRATION_LOST (R144). -/
def execArbitrationLost (moment acked : Nat) (s : State) : Host.Outcome State Fault Refusal :=
  .next (if s.bus.state = .active then loseArbitration acked (advance moment s) else s)

/-- BUS_STUCK (R143, R146): the transaction ends and the unit enters RECOVERY. -/
def execBusStuck (moment acked : Nat) (s : State) : Host.Outcome State Fault Refusal :=
  .next (if s.bus.state = .active then txnEndServe .recovery .busStuck acked [] (advance moment s) else s)

/-- BUS_TRANSACTION_END (R142). -/
def execBusTransactionEnd (moment : Nat) (outcome : BusEnd) (acked : Nat) (read : List Byte) (s : State) :
    Host.Outcome State Fault Refusal :=
  match s.bus.inHand with
  | none => .next s
  | some t =>
    .next (if s.bus.state = .active ∧ endPossible t outcome acked read then
      txnEndServe .idle (endOutcome outcome) acked read (advance moment s) else s)

/-- The bus state after a transaction that failed with an outcome: a BUS_STUCK is followed by a recovery (R143). -/
def afterFailure (o : BusOutcome) : BusState := if o = .busStuck then .recovery else .idle

/-- A failing outcome the transaction in hand can have where the unit stands (R142 to R145, R157): ARB_LOST only at
the retry limit or in FAULTED, BUS_BUSY_TIMEOUT only in WAIT_FREE; a BUS_FAULT end belongs to BUS_RESET and to FAULT. -/
def failurePossible (s : State) (o : BusOutcome) : Bool :=
  match o with
  | .success => false
  | .noAckAddr => s.bus.state == .active
  | .noAckData => s.bus.state == .active
  | .busStuck => s.bus.state == .active
  | .arbLost => s.bus.state == .active && (s.cfg.retryLimit ≤ s.bus.retries || s.part == .faulted)
  | .busyTimeout => s.bus.state == .waitFree
  | .busFault => false

/-- The transaction in hand fails with an outcome; after a loss of arbitration the monitor reads BUSY (R144). -/
def failInHand (o : BusOutcome) (s : State) : State :=
  txnEndServe (afterFailure o) o 0 [] { s with bus := { s.bus with monitorBusy := s.bus.monitorBusy || o == .arbLost } }

/-- POLL_FAILING (R152): the poll in hand fails and brings its slot's failures to 4 (log entry 3). -/
def execPollFailing (moment : Nat) (outcome : BusOutcome) (s : State) : Host.Outcome State Fault Refusal :=
  match s.bus.inHand with
  | none => .next s
  | some t => match t.owner with
    | .poll j replaced =>
      .next (if replaced = false ∧ failurePossible s outcome ∧ (s.bus.polls.getD j {}).slot.failures = 3 then
        failInHand outcome (advance moment s) else s)
    | .gain _ => .next s
    | .host _ => .next s

/-- GAIN_WRITE_FAILED (R102): the gain write in hand fails, for the third time in a row (log entry 3). -/
def execGainWriteFailed (moment : Nat) (outcome : BusOutcome) (s : State) : Host.Outcome State Fault Refusal :=
  match s.bus.inHand with
  | none => .next s
  | some t => match t.owner with
    | .gain _ =>
      .next (if failurePossible s outcome ∧ s.exposure.failures = 2 then failInHand outcome (advance moment s) else s)
    | .poll _ _ => .next s
    | .host _ => .next s

/-- POLL_DUE (R151): the countdown of an enabled entry reaches 0 (log entry 3). -/
def execPollDue (moment entry : Nat) (s : State) : Host.Outcome State Fault Refusal :=
  let p := s.bus.polls.getD entry {}
  .next (if s.part.lit ∧ p.entry.enable ∧ p.countdown ≤ 1 then
    busServe (advance moment { s with bus := { s.bus with polls := updateAt s.bus.polls entry countPoll } }) else s)

/-- RECOVERY_END (R146, R149). -/
def execRecoveryEnd (moment : Nat) (reads : List Bool) (clkStuck dat : Bool) (s : State) :
    Host.Outcome State Fault Refusal :=
  match recoveryOf reads clkStuck dat with
  | none => .next s
  | some r => .next (if s.bus.state = .recovery then endRecovery r (advance moment s) else s)

end Sys2Proof.Machine
end

