-- ==== Sys2Proof/Machine/Stamp.lean ====
section
/-! DEFINITION. The overlay unit's pictures (manual chapter 4): the visible grid, glyphs, the pixel rule, the stamp
text, and the byte the video port emits for a pixel (R42, R53). -/

namespace Sys2Proof.Machine

/-! ### The visible grid (R57) -/

def cellWidth (cfg : Cfg) : Nat := 16 * cfg.scale
def cellHeight (cfg : Cfg) : Nat := 24 * cfg.scale
def visibleCols (cfg : Cfg) : Nat := min 64 (cfg.width / cellWidth cfg)
def visibleRows (cfg : Cfg) : Nat := min 48 (cfg.height / cellHeight cfg)

/-- The index of a cell of the stored grid. -/
def cellIndex (row col : Nat) : Nat := row * 64 + col

/-- A cell index lies in the stamp field (section 4.7). -/
def inStampField (cfg : Cfg) (i : Nat) : Bool :=
  cellIndex cfg.stampRow cfg.stampCol ≤ i && i < cellIndex cfg.stampRow cfg.stampCol + 10

/-! ### Glyphs (R59) -/

/-- Row `row` of the glyph of a code, leftmost column in bit 15. The patterns of most fixed glyphs are free values
(`Config.fixedGlyph`); code 0x20, the printable space, is taken as blank (log entry 12). -/
def glyphRow (glyphs : List Byte) (code row : Nat) : BitVec 16 :=
  if 0xE0 ≤ code then
    BitVec.ofNat 16 (256 * u8 glyphs ((code - 0xE0) * 48 + 2 * row) + u8 glyphs ((code - 0xE0) * 48 + 2 * row + 1))
  else if code ≤ 0x20 ∨ code = 0x7F then 0
  else if code = 0xDB then 0xFFFF
  else Config.fixedGlyph code row

/-- The glyph bit at a glyph row and column. -/
def glyphBit (glyphs : List Byte) (code row col : Nat) : Bool := (glyphRow glyphs code row).getLsbD (15 - col)

/-! ### The pixel rule (R61) -/

/-- The component of a pixel that a byte carries. -/
inductive Component where
  | luma | cb | cr
  deriving DecidableEq, Repr

/-- The foreground index of an attribute byte. -/
def fgIndex (attr : Byte) : BitVec 4 := attr.extractLsb' 0 4

/-- The background index of an attribute byte. -/
def bgIndex (attr : Byte) : BitVec 4 := attr.extractLsb' 4 4

/-- An attribute byte of two indices. -/
def attrOf (fg bg : BitVec 4) : Byte := bg ++ fg

/-- The index is see-through under key and care (R61). -/
def keyed (o : Overlay) (p : BitVec 4) : Bool := (p ^^^ o.key) &&& o.care == 0

/-- The blend of a palette entry over a video byte (R61 step 4). -/
def blend (e : PaletteEntry) (c : Component) (video : Byte) : Byte :=
  let ov := match c with
    | .luma => e.y
    | .cb => e.cb
    | .cr => e.cr
  byte ((e.opacity * ov.toNat + (16 - e.opacity) * video.toNat + 8) / 16)

/-- A video byte under index `p`: unchanged where the index is see-through, else blended. -/
def paint (o : Overlay) (p : BitVec 4) (c : Component) (video : Byte) : Byte :=
  if keyed o p then video else blend (o.palette.getD p.toNat {}) c video

/-- The blink phase is on (R62). -/
def blinkOn (o : Overlay) : Bool := o.blinkPeriod == 0 || o.blinkCounter < o.blinkPeriod / 2

/-- A video byte under a cell of the grid, at a glyph row and column (R61). Bit n of the layer enable mask is taken
for layer n (log entry 37). -/
def paintCell (o : Overlay) (cell : Cell) (row col : Nat) (c : Component) (video : Byte) : Byte :=
  if o.layerEnable.getLsbD cell.layer = false ∨ (cell.blink = true ∧ blinkOn o = false) then video
  else paint o (if glyphBit o.glyphs cell.ch.toNat row col then fgIndex cell.attr else bgIndex cell.attr) c video

/-- A video byte under the banner row (R71). -/
def paintBanner (cfg : Cfg) (o : Overlay) (x row : Nat) (c : Component) (video : Byte) : Byte :=
  let q := x + o.pan
  let ch := (o.bannerLine.getD (q / cellWidth cfg) 0x20).toNat
  let col := q % cellWidth cfg / cfg.scale
  paint o (if glyphBit o.glyphs ch row col then fgIndex cfg.bannerAttr else bgIndex cfg.bannerAttr) c video

/-- The byte of the output picture at column `x` and line `y` for a byte of the picture below (R57, R61, R71). -/
def composeByte (cfg : Cfg) (o : Overlay) (x y : Nat) (c : Component) (video : Byte) : Byte :=
  let row := y / cellHeight cfg
  let col := x / cellWidth cfg
  let gr := y % cellHeight cfg / cfg.scale
  if visibleCols cfg ≤ col ∨ visibleRows cfg ≤ row then video
  else if cfg.bannerEnable ∧ row = cfg.bannerRow then paintBanner cfg o x gr c video
  else paintCell o (o.cells.getD (cellIndex row col) {}) gr (x % cellWidth cfg / cfg.scale) c video

/-- The byte of the fill picture (R42). -/
def fillByte (cfg : Cfg) (c : Component) : Byte :=
  match c with
  | .luma => cfg.fillY
  | .cb => cfg.fillCb
  | .cr => cfg.fillCr

/-- The component that byte `b` (0 chroma, 1 luma) of the pixel at column `x` carries (R27, R42). -/
def componentAt (x b : Nat) : Component := if b = 1 then .luma else if x % 2 = 0 then .cb else .cr

/-- Frame-valid of the video port at line `y` (R42): high across the picture, low while no picture is emitted. -/
def frameValid (s : State) (y : Nat) : Bool := s.playout.video != .none && decide (y < s.cfg.height)

/-- Line-valid of the video port at column `x` of line `y` (R42): high across each line of the picture. -/
def lineValid (s : State) (x y : Nat) : Bool := frameValid s y && decide (x < s.cfg.width)

/-- The byte of the present picture for byte `b` of pixel `x` of line `y`: none while there is no picture (R42, R52,
R53). -/
def pictureByte (s : State) (x y b : Nat) : Option Byte :=
  let c := componentAt x b
  match s.playout.video with
  | .none => none
  | .fill overlay => some (if overlay then composeByte s.cfg s.overlay x y c (fillByte s.cfg c) else fillByte s.cfg c)
  | .store k => some (composeByte s.cfg s.overlay x y c
      (Memory.read s.mem (s.cfg.ringBase + k * s.cfg.stride + 64 + (y * s.cfg.width + x) * 2 + b)))

/-- The byte the video port emits in the present output period for byte `b` (0 chroma, 1 luma) of pixel `x` of line `y`
(R42): none outside the configured width and height. -/
def videoByte (s : State) (x y b : Nat) : Option Byte :=
  if lineValid s x y && decide (b < 2) then pictureByte s x y b else none

/-! ### The stamp text (R73) -/

/-- The decimal digits of `n` without leading zeros, a single 0 for zero, with `fuel` digits at most. -/
def digits : Nat → Nat → List Byte
  | 0, _ => []
  | fuel + 1, n => if n < 10 then [byte (0x30 + n)] else digits fuel (n / 10) ++ [byte (0x30 + n % 10)]

/-- The centimetre count c (R73): X / 10 with an exact half moved away from zero. -/
def centimetres (x : Int) : Int := if x < 0 then -(((-x) + 5) / 10) else (x + 5) / 10

/-- The marker cell (R73). -/
def stampMarker (held saturated : Bool) (x : Int) : Byte :=
  if held then 0x48
  else if saturated ∧ x = Config.xMax then 0x3E
  else if saturated ∧ x = Config.xMin then 0x3C
  else 0x20

/-- Cells 1 to 8 (R73): X in metres with two decimals, right-aligned. -/
def stampNumber (x : Int) : List Byte :=
  let c := centimetres x
  let n := c.natAbs
  let text := (if c < 0 then [0x2D] else []) ++ digits 5 (n / 100) ++ [0x2E, byte (0x30 + n / 10 % 10), byte (0x30 + n % 10)]
  List.replicate (8 - text.length) 0x20 ++ text

/-- The ten characters of the stamp text (R73). -/
def stampText (x : Int) (held saturated : Bool) : List Byte :=
  stampMarker held saturated x :: stampNumber x ++ [0x6D]

/-! ### Burn-in (R33) -/

/-- A received byte of a picture line as written to the store: inside the stamp field region the burn-in pixel, formed
by the pixel rule without layers and blink. -/
def burnByte (cfg : Cfg) (o : Overlay) (text : List Byte) (line i : Nat) (received : Byte) : Byte :=
  let x := i / 2
  let row := line / cellHeight cfg
  let col := x / cellWidth cfg
  if row = cfg.stampRow ∧ cfg.stampCol ≤ col ∧ col < cfg.stampCol + 10 then
    let code := (text.getD (col - cfg.stampCol) 0x20).toNat
    let bit := glyphBit o.glyphs code (line % cellHeight cfg / cfg.scale) (x % cellWidth cfg / cfg.scale)
    paint o (if bit then fgIndex cfg.stampAttr else bgIndex cfg.stampAttr) (componentAt x (i % 2)) received
  else received

/-- The bytes of a line with burn-in. -/
def burnLine (cfg : Cfg) (o : Overlay) (text : List Byte) (line : Nat) (bytes : List Byte) : List Byte :=
  bytes.mapIdx fun i b => burnByte cfg o text line i b

end Sys2Proof.Machine
end

