-- ==== Sys2Proof/Machine/OverlayUnit.lean ====
section
/-! DEFINITION. The overlay unit's edits, blink, banner and stamp renderer (manual sections 4.5 to 4.7). An edit is
kept with its 48 argument bytes as read at taking and is checked and applied at an output frame start (R63, R64). -/

namespace Sys2Proof.Machine

/-- How an edit ends: the overlay unit's new state, the result code and the two result words. -/
structure EditResult where
  overlay : Overlay
  code : Nat
  w0 : Nat
  w1 : Nat
  deriving DecidableEq, Repr

/-- An edit refused whole (R64): nothing changes, BAD_ARGUMENT, words 0. -/
def refuseEdit (o : Overlay) : EditResult := ⟨o, rcBadArgument, 0, 0⟩

/-! ### Cell edits (R64 to R67) -/

/-- A cell position an edit may write: in the stored grid and outside the stamp field (R64). -/
def writable (cfg : Cfg) (row col : Nat) : Bool :=
  row < 48 && col < 64 && !inStampField cfg (cellIndex row col)

/-- The cells written, in order. -/
def putCells : List (Nat × Cell) → List Cell → List Cell
  | [], cells => cells
  | (i, c) :: rest, cells => putCells rest (cells.set i c)

/-- The cells of an edit at positions (row, column, new cell) that it writes, those at writable positions, are
written and the others refused (R64). -/
def writeCells (cfg : Cfg) (clamped : Bool) (cells : List (Nat × Nat × Cell)) (o : Overlay) : EditResult :=
  let ok := cells.filter fun p => writable cfg p.1 p.2.1
  ⟨{ o with cells := putCells (ok.map fun p => (cellIndex p.1 p.2.1, p.2.2)) o.cells },
   if ok.length = 0 then rcBadArgument else if clamped then rcClamped else rcOk,
   ok.length, cells.length - ok.length⟩

/-- An edit that names layers: layer 3 for a cell it would write, or a layer above 3 for any, refuses it whole (R64;
log entry 32). -/
def editCells (cfg : Cfg) (clamped : Bool) (cells : List (Nat × Nat × Cell)) (o : Overlay) : EditResult :=
  if (cells.any fun p => writable cfg p.1 p.2.1 && p.2.2.layer == 3) ∨ (cells.any fun p => 3 < p.2.2.layer) then
    refuseEdit o
  else writeCells cfg clamped cells o

/-- The positions of a COPY (R65): row-major from the start position, the list not closing up. A position after row
47, column 63 has a row of 48 or above. -/
def copyPositions (row col : Nat) (cells : List Cell) : List (Nat × Nat × Cell) :=
  cells.mapIdx fun i c => ((cellIndex row col + i) / 64, (cellIndex row col + i) % 64, c)

/-- The cells of an inline COPY: `n` pairs of character and attribute, one blink flag and one layer (R65). -/
def inlineCells (args : List Byte) (n : Nat) : List Cell :=
  (List.range n).map fun i =>
    { ch := args.getD (6 + 2 * i) 0, attr := args.getD (7 + 2 * i) 0, blink := flagAt args 5, layer := u8 args 3 }

/-- The cells of a buffer COPY: 4 bytes each (R65). -/
def bufferCells (buf : List Byte) (n : Nat) : List Cell :=
  (List.range n).map fun i =>
    { ch := buf.getD (4 * i) 0, attr := buf.getD (4 * i + 1) 0, blink := flagAt buf (4 * i + 2),
      layer := u8 buf (4 * i + 3) }

/-- The positions of a rectangle, with the new cell of each from the old one (R66). -/
def rectangle (o : Overlay) (row col height width : Nat) (f : Cell → Cell) : List (Nat × Nat × Cell) :=
  (List.range height).flatMap fun r => (List.range width).map fun c =>
    (row + r, col + c, f (o.cells.getD (cellIndex (row + r) (col + c)) {}))

/-- A CLEAR_LAYER clears the cell at this index: it has the layer and lies outside the stamp field, whose cells no edit
writes (R64, R67). -/
def clears (cfg : Cfg) (n i : Nat) (c : Cell) : Bool := c.layer == n && !inStampField cfg i

/-- CLEAR_LAYER (R67): every cell of the layer outside the stamp field becomes a space in the key then in force. A cell
of the layer that it passes over in the stamp field is counted in neither word (log entry 54). -/
def clearLayer (cfg : Cfg) (n : Nat) (o : Overlay) : EditResult :=
  if 3 ≤ n then refuseEdit o
  else
    let count := ((o.cells.mapIdx fun i c => clears cfg n i c).filter id).length
    ⟨{ o with cells := o.cells.mapIdx fun i c =>
        if clears cfg n i c then { ch := 0x20, attr := attrOf o.key o.key, blink := false, layer := n } else c },
     if count = 0 then rcBadArgument else rcOk, count, 0⟩

/-- The start position lies in the stored grid (R64). -/
def startInGrid (args : List Byte) : Bool := u8 args 1 < 48 && u8 args 2 < 64

/-- OVERLAY_WRITE but for COPY from a buffer (R65 to R67), by its mode selector. CLEAR_LAYER has no start position: its
row and column are not looked at, nor is the layer byte of an ATTRIBUTE_MASK (log entry 51). -/
def applyWrite (cfg : Cfg) (args : List Byte) (o : Overlay) : EditResult :=
  let row := u8 args 1
  let col := u8 args 2
  let height := min 48 (u8 args 4)
  let width := min 64 (u8 args 5)
  let clamped : Bool := 48 < u8 args 4 || 64 < u8 args 5
  match u8 args 0 with
  | 0 =>
    if startInGrid args then
      editCells cfg (20 < u8 args 4) (copyPositions row col (inlineCells args (min 20 (u8 args 4)))) o
    else refuseEdit o
  | 2 =>
    if startInGrid args then
      let mask := args.getD 6 0
      let value := args.getD 7 0
      writeCells cfg clamped (rectangle o row col height width fun c =>
        { c with attr := (c.attr &&& ~~~mask) ||| (value &&& mask) }) o
    else refuseEdit o
  | 3 =>
    if startInGrid args then
      editCells cfg clamped (rectangle o row col height width fun _ =>
        { ch := args.getD 6 0, attr := args.getD 7 0, blink := flagAt args 8, layer := u8 args 3 }) o
    else refuseEdit o
  | 4 => clearLayer cfg (u8 args 3) o
  | _ => refuseEdit o

/-- COPY from a buffer whose bytes have been read (R65). Each cell brings its own layer, and the layer byte of the
request is not looked at (log entry 51). -/
def applyCopyBuffer (cfg : Cfg) (args buf : List Byte) (o : Overlay) : EditResult :=
  editCells cfg (1024 < u16 args 4)
    (copyPositions (u8 args 1) (u8 args 2) (bufferCells buf (min 1024 (u16 args 4)))) o

/-! ### The banner FIFO (R69) -/

/-- Characters join the FIFO at its end; beyond 128 the oldest leave its front first. -/
def appendFifo (chars : List Byte) (o : Overlay) : Overlay :=
  { o with fifo := (o.fifo ++ chars).drop (o.fifo.length + chars.length - 128) }

/-! ### OVERLAY_STYLE (R68) -/

/-- One palette entry of a PALETTE edit; an opacity above 16 is set to 16. -/
def paletteEntry (args : List Byte) (i : Nat) : PaletteEntry :=
  { y := args.getD (4 + 4 * i) 0, cb := args.getD (5 + 4 * i) 0, cr := args.getD (6 + 4 * i) 0,
    opacity := min 16 (u8 args (7 + 4 * i)) }

/-- Part PALETTE. -/
def stylePalette (args : List Byte) (o : Overlay) : EditResult :=
  let first := u8 args 1
  let count := u8 args 2
  if count = 0 ∨ 8 < count ∨ 16 < first + count then refuseEdit o
  else
    ⟨{ o with palette := o.palette.mapIdx fun i e =>
        if first ≤ i ∧ i < first + count then paletteEntry args (i - first) else e },
     if (List.range count).any fun i => 16 < u8 args (7 + 4 * i) then rcClamped else rcOk, 0, 0⟩

/-- Part MASKS: each present mask is replaced. -/
def styleMasks (args : List Byte) (o : Overlay) : EditResult :=
  let key := bitAt args 1 0
  let care := bitAt args 1 1
  let layers := bitAt args 1 2
  if (key = false ∧ care = false ∧ layers = false) ∨ (key = true ∧ 15 < u8 args 2) ∨ (care = true ∧ 15 < u8 args 3)
      ∨ (layers = true ∧ 15 < u8 args 4) then refuseEdit o
  else
    ⟨{ o with
        key := if key then BitVec.ofNat 4 (u8 args 2) else o.key
        care := if care then BitVec.ofNat 4 (u8 args 3) else o.care
        layerEnable := if layers then BitVec.ofNat 4 (u8 args 4) else o.layerEnable }, rcOk, 0, 0⟩

/-- Part BLINK: the period is replaced and the counter set to 0; a period of 1 is set to 2. -/
def styleBlink (args : List Byte) (o : Overlay) : EditResult :=
  ⟨{ o with blinkPeriod := if u8 args 1 = 1 then 2 else u8 args 1, blinkCounter := 0 },
   if u8 args 1 = 1 then rcClamped else rcOk, 0, 0⟩

/-- Part BANNER_TEXT. -/
def styleBannerText (args : List Byte) (o : Overlay) : EditResult :=
  let replace := flagAt args 1
  if u8 args 2 = 0 ∧ replace = false then refuseEdit o
  else
    let o' := if replace then { o with fifo := [], pan := 0 } else o
    ⟨appendFifo (slice args 4 (min 44 (u8 args 2))) o', if 44 < u8 args 2 then rcClamped else rcOk, 0, 0⟩

/-- Part BANNER_SPEED. -/
def styleBannerSpeed (args : List Byte) (o : Overlay) : EditResult :=
  ⟨{ o with scrollSpeed := min 4 (u8 args 1) }, if 4 < u8 args 1 then rcClamped else rcOk, 0, 0⟩

/-- Part MARK_ATTRIBUTE: the countdown in progress is not changed. -/
def styleMarkAttribute (args : List Byte) (o : Overlay) : EditResult :=
  if 15 < u8 args 1 ∨ 15 < u8 args 2 then refuseEdit o
  else
    ⟨{ o with markAttr := attrOf (BitVec.ofNat 4 (u8 args 1)) (BitVec.ofNat 4 (u8 args 2)), flashLen := u8 args 3 },
     rcOk, 0, 0⟩

/-- OVERLAY_STYLE by its part selector (R68). -/
def applyStyle (args : List Byte) (o : Overlay) : EditResult :=
  match u8 args 0 with
  | 0 => stylePalette args o
  | 1 => styleMasks args o
  | 2 => styleBlink args o
  | 3 => styleBannerText args o
  | 4 => styleBannerSpeed args o
  | 5 => styleMarkAttribute args o
  | _ => refuseEdit o

/-! ### FONT_LOAD (R60) -/

/-- The number of glyphs a FONT_LOAD loads. -/
def fontCount (args : List Byte) : Nat := min (u8 args 1) (0x100 - u8 args 0)

/-- The arguments of a FONT_LOAD are refused (R60, first three cases). -/
def fontRefused (args : List Byte) : Bool := u8 args 0 < 0xE0 || u32 args 4 % 4 != 0 || u8 args 1 == 0

/-- The glyphs of a FONT_LOAD replaced, all together. -/
def applyFont (args buf : List Byte) (o : Overlay) : EditResult :=
  let n := fontCount args
  let at0 := (u8 args 0 - 0xE0) * 48
  ⟨{ o with glyphs := o.glyphs.take at0 ++ padTo (48 * n) buf ++ o.glyphs.drop (at0 + 48 * n) },
   if 0x100 < u8 args 0 + u8 args 1 then rcClamped else rcOk, n, u8 args 0⟩

/-! ### Applying the pending edits (R63) -/

/-- The buffer an edit reads at application, if any: address and length. An edit that its arguments alone refuse reads
none (log entry 50). -/
def editBuffer (e : Request) : Option (Nat × Nat) :=
  if e.kind = kFontLoad then
    if fontRefused e.args then none else some (u32 e.args 4, 48 * fontCount e.args)
  else if e.kind = kOverlayWrite ∧ u8 e.args 0 = 1 ∧ startInGrid e.args ∧ u32 e.args 8 % 4 = 0 then
    some (u32 e.args 8, 4 * min 1024 (u16 e.args 4))
  else none

/-- An edit's effect, with the bytes of its buffer where it reads one. -/
def applyEdit (cfg : Cfg) (e : Request) (buf : Option (List Byte)) (o : Overlay) : EditResult :=
  if e.kind = kFontLoad then
    match buf with
    | some b => applyFont e.args b o
    | none => refuseEdit o
  else if e.kind = kOverlayStyle then applyStyle e.args o
  else match buf with
    | some b => applyCopyBuffer cfg e.args b o
    | none => applyWrite cfg e.args o

/-- The oldest edit is applied with its buffer's bytes, leaves the list and completes (R63, R13), so that
one whose completion ends in a memory error is not in the list (log entry 58). -/
def finishEdit (e : Request) (rest : List Request) (buf : Option (List Byte)) (s : State) : State :=
  let r := applyEdit s.cfg e buf s.overlay
  complete e.slot r.code r.w0 r.w1 { s with overlay := { r.overlay with edits := rest } }

/-- Every pending edit is applied and completed, from the oldest; a memory error ends the work, and the failing edit
and those after it stay in the list without completion (R63). -/
def applyEdits : List Request → State → State
  | [], s => s
  | e :: es, s =>
    match editBuffer e with
    | none => onward (finishEdit e es none s) (applyEdits es)
    | some (a, n) => match portRead a n s with
      | none => enterFaulted s
      | some buf => onward (finishEdit e es (some buf) s) (applyEdits es)

/-- The edit sets the blink period, so that the advance at this output frame start is not made (R62). -/
def setsBlink (e : Request) : Bool := e.kind == kOverlayStyle && u8 e.args 0 == 2

/-! ### Blink, banner and stamp at an output frame start -/

/-- The blink counter advances (R62). -/
def advanceBlink (o : Overlay) : Overlay :=
  { o with blinkCounter := if o.blinkPeriod = 0 then 0 else (o.blinkCounter + 1) % o.blinkPeriod }

/-- The banner advances and the banner line is taken (R70). -/
def advanceBanner (cfg : Cfg) (o : Overlay) : Overlay :=
  let o :=
    if cfg.bannerEnable ∧ o.fifo ≠ [] then
      let pan := o.pan + o.scrollSpeed
      if cellWidth cfg ≤ pan then
        { o with fifo := o.fifo.tail, pan := if o.fifo.tail = [] then 0 else pan - cellWidth cfg }
      else { o with pan := pan }
    else o
  { o with bannerLine := o.fifo.take (visibleCols cfg + 1) }

/-- The ten stamp field cells written (R72, R74): the stamp text in the stamp or mark attribute, or, with the stamp
disabled, spaces in the key then in force. -/
def writeStamp (cfg : Cfg) (c : Chainage) (o : Overlay) : Overlay :=
  let attr := if 0 < o.flash then o.markAttr else cfg.stampAttr
  let text := stampText c.x c.isHeld c.saturated
  let cell := fun i =>
    if cfg.stampEnable then { ch := text.getD i 0x20, attr := attr, blink := false, layer := 3 }
    else ({ ch := 0x20, attr := attrOf o.key o.key, blink := false, layer := 3 } : Cell)
  { o with
    cells := putCells ((List.range 10).map fun i => (cellIndex cfg.stampRow cfg.stampCol + i, cell i)) o.cells
    flash := o.flash - 1 }

/-- The overlay unit's work at an output frame start that begins a picture with overlay (R63): edits, blink, banner,
stamp. In FAULTED nothing. -/
def overlayFrame (s : State) : State :=
  if s.part.lit ∨ s.part = .halted then
    let blinkSet := s.overlay.edits.any setsBlink
    onward (applyEdits s.overlay.edits s) fun s =>
    let o := if blinkSet then s.overlay else advanceBlink s.overlay
    { s with overlay := writeStamp s.cfg s.chainage (advanceBanner s.cfg o) }
  else s

/-- A MARK notice starts the flash (R74); in FAULTED it is ignored. -/
def startFlash (s : State) : State :=
  if s.part = .faulted then s else { s with overlay := { s.overlay with flash := s.overlay.flashLen } }

/-- The values a START that passes its checks sets (R58, R62): layer-3 cells outside the new stamp field are blanked;
the pan offset becomes 0 when the cell width changes. -/
def overlayTakeConfig (old new : Cfg) (o : Overlay) : Overlay :=
  { o with
    cells := o.cells.mapIdx fun i c => if c.layer = 3 ∧ inStampField new i = false then {} else c
    blinkPeriod := new.blinkPeriod, blinkCounter := 0
    pan := if cellWidth old = cellWidth new then o.pan else 0
    scrollSpeed := new.scrollSpeed, markAttr := new.markAttr, flashLen := new.markFlash }

end Sys2Proof.Machine
end

