-- ==== Sys2Proof/Machine/ListEngine.lean ====
section
/-! DEFINITION. The list engine's scan (manual section 1.4): scan events, the reading and taking of a slot, the hand-over
of the taken request to its unit, list faults and LIST_RESYNC. -/

namespace Sys2Proof.Machine

/-! ### Room and slots in hand -/

/-- The host messages waiting in the uplink queue: the host places occupied (R137). -/
def hostPlaces (l : Link) : Nat := (l.queue.filter fun m => m.host.isSome).length

/-- The unit that owns a request of this kind has room for it (R16). -/
def unitRoom (kind : Nat) (s : State) : Bool :=
  if kind = kBusTransfer then s.bus.queue.length < 4
  else if kind = kUplinkSend then hostPlaces s.link < 3
  else true

/-- The SNAPSHOT slot of an origin, if it is one. -/
def StillOrigin.slot? : StillOrigin → Option Nat
  | .snapshot slot => some slot
  | .mark => none
  | .stop => none

/-- The slots from which the part holds a request that is not completed (R13). -/
def heldSlots (s : State) : List Nat :=
  (s.list.handed.map (·.slot)).toList ++ s.overlay.edits.map (·.slot) ++ s.bus.queue.map (·.slot) ++ s.bus.resets
    ++ s.link.queue.filterMap (·.host) ++ (s.link.sending.bind (·.msg.host)).toList
    ++ s.still.orders.filterMap (·.origin.slot?) ++ (s.still.copy.bind (·.origin.slot?)).toList

/-! ### The scan (R14, R15) -/

/-- The address of the slot at the request cursor. -/
def cursorSlot (s : State) : Nat := s.cfg.listBase + 64 * s.list.reqIndex

/-- A scan event (R14): in RUNNING with list state ACTIVE a scan begins, or is merged into the one under way. -/
def scanEvent (s : State) : State :=
  if s.part = .running ∧ s.list.listState = .active then { s with list := { s.list with scanning := true } } else s

/-- The scan ends: the scan state is IDLE. -/
def endScan (s : State) : State := { s with list := { s.list with scanning := false } }

/-- The cursor one index on; from the last index to 0 with the lap one higher, from 3 to 0 (R15). -/
def advanceCursor (s : State) : State :=
  if s.list.reqIndex + 1 < s.cfg.slots then { s with list := { s.list with reqIndex := s.list.reqIndex + 1 } }
  else { s with list := { s.list with reqIndex := 0, reqLap := (s.list.reqLap + 1) % 4 } }

/-- d = (slot lap − cursor lap) mod 4; a lap field above 3 reads as ahead (R15). -/
def lapDistance (slotLap cursorLap : Nat) : Nat := if 3 < slotLap then 1 else (slotLap + 4 - cursorLap % 4) % 4

/-- The list fault (R15): list state FAULTED, the scan ends, the cursor stays; LIST_FAULT, then FAULT. -/
def listFault (slotLap : Nat) (s : State) : State :=
  let ev := Event.listFault s.list.reqIndex s.list.reqLap slotLap
  let s := emit ev { s with list := { s.list with listState := .faulted, scanning := false } }
  onward s (setAttention attFault)

/-- A new request is taken (R15): TAKEN is written, the request is in hand, and the cursor advances. -/
def takeSlot (r : Request) (s : State) : State :=
  onward (portWrite r.slot [2] s) fun s =>
  advanceCursor { s with list := { s.list with handed := some r } }

/-- A new request is read, kind, tag and the arguments its kind uses, and taken if its unit has room; else the scan
ends (R15, R16, R18). -/
def readRequest (s : State) : State :=
  let a := cursorSlot s
  match portRead (a + 2) 1 s, portRead (a + 4) 4 s with
  | some k, some _ =>
    match portReadSome (usesArgument (u8 k 0)) (a + 16) 48 s with
    | some args =>
      if unitRoom (u8 k 0) s then takeSlot { slot := a, kind := u8 k 0, args := args } s else endScan s
    | none => enterFaulted s
  | _, _ => enterFaulted s

/-- The slot at the cursor is read and the first matching case of R15 followed. -/
def scanSlotOp (s : State) : State :=
  let a := cursorSlot s
  match portRead a 2 s with
  | none => enterFaulted s
  | some bytes =>
    let lap := u8 bytes 1
    let d := lapDistance lap s.list.reqLap
    if u8 bytes 0 ≠ 1 ∨ (heldSlots s).contains a then endScan s
    else if d = 0 then readRequest s
    else if d = 3 then endScan s
    else listFault lap s

/-- The scan can go on to a slot: it is under way in RUNNING and holds no request that is not handed over. -/
def scanReady (s : State) : Bool := s.part == .running && s.list.scanning && s.list.handed.isNone

/-! ### LIST_RESYNC (R12) -/

/-- The cursor goes to index 0, lap 0, the list state to ACTIVE, and the scan has ended. -/
def resyncNow (s : State) : State :=
  { s with list := { s.list with reqIndex := 0, reqLap := 0, listState := .active, scanning := false,
                                 resyncWaiting := false } }

/-! ### The hand-over of the request in hand -/

/-- After a hand-over: a waiting LIST_RESYNC is made (R12); outside RUNNING the scan ends after the slot it was
handling (R8), which may end the HALT. -/
def finishHand (s : State) : State :=
  let s := if s.list.resyncWaiting then resyncNow s else s
  let s := if s.part = .running then s else endScan s
  settleHalt s

/-- The request in hand is carried out by `f` if its kind satisfies `isKind`; any other leaves the state (log
entry 4). -/
def handOver (isKind : Nat → Bool) (f : Request → State → State) (s : State) : State :=
  match s.list.handed with
  | none => s
  | some r => if isKind r.kind then finishHand (f r { s with list := { s.list with handed := none } }) else s

/-- The hand-over of a request of one kind. -/
def handOverKind (kind : Nat) (f : Request → State → State) (s : State) : State := handOver (· == kind) f s

/-- A request whose structure refuses it completes BAD_ARGUMENT with both result words 0 (R18). -/
def badArgument (r : Request) (s : State) : State := complete r.slot rcBadArgument 0 0 s

/-! ### The commands -/

/-- SCAN_SLOT (R15): the scan under way reads the slot at the cursor. -/
def execScanSlot (moment : Nat) (s : State) : Host.Outcome State Fault Refusal :=
  .next (if scanReady s then scanSlotOp (advance moment s) else s)

/-- LIST_POLL_TIMER_EXPIRY (R14): the timer reloads and its expiry is a scan event. -/
def execListPollTimerExpiry (s : State) : Host.Outcome State Fault Refusal :=
  match s.list.pollTimer with
  | none => .next s
  | some e => .next (scanEvent
      { advance e s with list := { s.list with pollTimer := some (e + s.cfg.pollMs * 1000) } })

/-- BAD_KIND (R18): the taken request of a kind that is none of the seventeen. -/
def execBadKind (s : State) : Host.Outcome State Fault Refusal :=
  .next (handOver (fun k => !knownKind k) (fun r s => complete r.slot rcBadKind 0 0 s) s)

end Sys2Proof.Machine
end

