-- ==== Sys2Proof/Machine/ExposureUnit.lean ====
section
/-! DEFINITION. EXPOSURE_SET (R95). -/

namespace Sys2Proof.Machine

/-- Bit `k` of the present field of an EXPOSURE_SET. -/
def expPresent (args : List Byte) (k : Nat) : Bool := if k < 8 then bitAt args 2 k else bitAt args 3 (k - 8)

/-- A present parameter brought into its range, or the one in force. -/
def expParam (args : List Byte) (k lo hi value current : Nat) : Nat :=
  if expPresent args k then clampNat lo hi value else current

/-- The parameters after step 1 of R95. -/
def expParams (args : List Byte) (e : Exposure) : Exposure :=
  let tMin := expParam args 0 20 200000 (u32 args 4) e.tMin
  let tMax := expParam args 2 20 200000 (u32 args 12) e.tMax
  { e with
    tMin := tMin
    tMax := tMax
    tPref := clampNat tMin tMax (if expPresent args 1 then u32 args 8 else e.tPref)
    gMax := expParam args 3 256 4096 (u16 args 16) e.gMax
    lMin := expParam args 4 0 1023 (u16 args 18) e.lMin
    lMax := expParam args 5 0 1023 (u16 args 20) e.lMax
    target := expParam args 6 16 235 (u8 args 22) e.target
    tolerance := expParam args 7 0 32 (u8 args 23) e.tolerance
    damping := expParam args 8 1 16 (u8 args 24) e.damping }

/-- The mode after step 2 of R95. -/
def expMode (args : List Byte) (m : ExpMode) : ExpMode :=
  if u8 args 0 = 1 then .auto else if u8 args 0 = 2 then .manual else m

/-- The plan after step 3 of R95: in MANUAL the present manual values, brought into range. -/
def expManual (args : List Byte) (e : Exposure) : Exposure :=
  if e.mode = .manual then
    { e with planT := expParam args 9 e.tMin e.tMax (u32 args 28) e.planT
             planG := expParam args 10 256 e.gMax (u16 args 32) e.planG
             planL := expParam args 11 0 e.lMax (u16 args 34) e.planL }
  else e

/-- The plan within the parameters now in force (R95 step 4). In MANUAL its bound is L_max, also for a plan that the loop
made (R94; log entry 40). -/
def expWithin (l : Lamp) (e : Exposure) : Exposure :=
  let bound := match e.mode with
    | .manual => e.lMax
    | .auto => loopCap l e
  { e with planT := clampNat e.tMin e.tMax e.planT, planG := clampNat 256 e.gMax e.planG
           planL := min e.planL bound, lCap := bound }

/-- An EXPOSURE_SET is refused: no such mode, or t_min above t_max after the bringing into range (R95). -/
def exposureSetRefused (args : List Byte) (e : Exposure) : Bool :=
  2 < u8 args 0 || (expParams args e).tMax < (expParams args e).tMin

/-- A present argument differs from the value taken for it. -/
def expMoved (args : List Byte) (k value taken : Nat) : Bool := expPresent args k && value != taken

/-- An argument of the request was brought into range: the parameters `p` and, in MANUAL mode, the plan `m` taken from
them (R95; log entry 35 for t_pref). -/
def exposureSetClamped (args : List Byte) (p m : Exposure) : Bool :=
  expMoved args 0 (u32 args 4) p.tMin || expMoved args 1 (u32 args 8) p.tPref || expMoved args 2 (u32 args 12) p.tMax
    || expMoved args 3 (u16 args 16) p.gMax || expMoved args 4 (u16 args 18) p.lMin
    || expMoved args 5 (u16 args 20) p.lMax || expMoved args 6 (u8 args 22) p.target
    || expMoved args 7 (u8 args 23) p.tolerance || expMoved args 8 (u8 args 24) p.damping
    || (m.mode == .manual && (expMoved args 9 (u32 args 28) m.planT || expMoved args 10 (u16 args 32) m.planG
          || expMoved args 11 (u16 args 34) m.planL))

/-- The exposure unit after steps 1 to 3 of R95. -/
def exposureSetManual (args : List Byte) (e : Exposure) : Exposure :=
  let p := expParams args e
  expManual args { p with mode := expMode args p.mode }

/-- EXPOSURE_SET (R95): the steps, the gain handed and the retry flag cleared, the completion; the head bus unit then
looks for work. -/
def exposureSetOp (r : Request) (s : State) : State :=
  if exposureSetRefused r.args s.exposure then badArgument r s
  else
    let m := exposureSetManual r.args s.exposure
    let code := if exposureSetClamped r.args (expParams r.args s.exposure) m then rcClamped else rcOk
    let s := handGain { s with exposure := expWithin s.lamp m }
    let s := { s with exposure := { s.exposure with retry := false } }
    onward (complete r.slot code s.exposure.planT s.exposure.planG s) busServe

/-- EXPOSURE_SET (R95). -/
def execExposureSet (s : State) : Host.Outcome State Fault Refusal :=
  .next (handOverKind kExposureSet exposureSetOp s)

end Sys2Proof.Machine
end

