-- ==== Sys2Proof/Machine/Ring.lean ====
section
/-! DEFINITION. The ring table and the capture unit's planning, selection and trigger start (manual sections 2.2 to
2.6): what a release of a hold or a pin sets off is here, so that every block can report one. -/

namespace Sys2Proof.Machine

/-- The ring table entry of a store. -/
def storeAt (s : State) (k : Nat) : RingEntry := s.ring.getD k {}

/-- One ring table entry changed. -/
def updateStore (k : Nat) (f : RingEntry → RingEntry) (s : State) : State :=
  { s with ring := updateAt s.ring k f }

/-- The address of store `k` (R19). -/
def storeBase (cfg : Cfg) (k : Nat) : Nat := cfg.ringBase + k * cfg.stride

/-- The address of a line of a store (R19). -/
def lineBase (cfg : Cfg) (k line : Nat) : Nat := storeBase cfg k + 64 + line * cfg.width * 2

/-- The stores in use, in index order. -/
def storesInUse (s : State) : List Nat := List.range s.cfg.stores

/-- The number of held stores (R36). -/
def heldStores (s : State) : Nat := ((storesInUse s).filter fun k => (storeAt s k).hold).length

/-- A store that capture may select (R23): not held, not pinned by playout, not pinned by a still copy. -/
def RingEntry.selectable (e : RingEntry) : Bool := !e.hold && !e.playPin && !e.stillPin

/-- The order in which a selection examines the stores (R23): N stores from the one after the selection pointer. -/
def selectionOrder (s : State) : List Nat :=
  let start := match s.capture.selPtr with
    | none => 0
    | some p => p + 1
  (storesInUse s).map fun i => (start + i) % s.cfg.stores

/-- The store a selection finds, if any (R23). -/
def selectStore (s : State) : Option Nat := (selectionOrder s).find? fun k => (storeAt s k).selectable

/-- T_cap of an exposure time (R20). -/
def capturePeriod (cfg : Cfg) (t : Nat) : Nat := max cfg.tSmin (t + cfg.tRo)

/-- The head order waits for a boost frame (R161). -/
def boostWaiting (st : Still) : Bool :=
  st.copy.isNone && match st.orders with
    | [] => false
    | o :: _ => !o.claimed

/-- The head order becomes CLAIMED (R161). -/
def claimHead (st : Still) : Still :=
  match st.orders with
  | [] => st
  | o :: os => { st with orders := { o with claimed := true, frameSeq := 0 } :: os }

/-- The still unit holds the order that claimed the boost frame (R29). -/
def boostHeld (st : Still) : Bool :=
  match st.orders with
  | [] => false
  | o :: _ => o.claimed

/-- The sequence of the claimed order's boost frame becomes known at its trigger start (R160, R165). -/
def noteBoostSeq (seq : Word) (st : Still) : Still :=
  match st.orders with
  | [] => st
  | o :: os => if o.claimed then { st with orders := { o with frameSeq := seq } :: os } else st

/-- The moment the next frame may trigger at the earliest (R23). -/
def dueMoment (s : State) : Nat :=
  match s.capture.prevTrigger with
  | none => s.now
  | some p => max s.now (p.1 + p.2)

/-- The plan of the next frame is fixed (R22): t and L of the exposure unit's plan, T_cap, the boost claim. -/
def fixPlan (s : State) : State :=
  let boost := boostWaiting s.still
  let p : FramePlan :=
    { t := s.exposure.planT, level := s.exposure.planL, tCap := capturePeriod s.cfg s.exposure.planT,
      boost := boost, dueAt := dueMoment s }
  { s with
    capture := { s.capture with plan := some p }
    still := if boost then claimHead s.still else s.still }

/-- The header writes of a trigger start (R25, R176): the state FILLING first, hold 0, the sequence, the output frame
number. -/
def writeFillingHeader (k : Nat) (seq : Word) (s : State) : State :=
  onward (portWrite (storeBase s.cfg k) [1, 0] s) fun s =>
  onward (portWrite (storeBase s.cfg k + 4) (le32 seq.toNat) s) fun s =>
  portWrite (storeBase s.cfg k + 40) (le32 s.playout.frames.toNat) s

/-- Trigger start of the planned frame into store `k` (R25, R88). -/
def triggerStart (k : Nat) (s : State) : State :=
  match s.capture.plan with
  | none => s
  | some p =>
    let seq := s.capture.seq + 1
    let s := updateStore k (fun e => { e with state := .filling, seq := seq, hold := false })
      { s with capture := { s.capture with seq := seq, selPtr := some k } }
    onward (writeFillingHeader k seq s) fun s =>
    onward (lampDo (lampTriggerStart s.part s.cfg p s.lamp) s) fun s =>
    { s with
      capture := { s.capture with
        trig := .exposing
        prevTrigger := some (s.now, p.tCap)
        deadline := some (s.now + p.t + s.cfg.tRo + s.cfg.guardMs * 1000)
        deferralOpen := false
        frame := some { store := k, seq := seq, gain := s.exposure.gainInEffect,
                        levels := s.lamp.channels.map (·.applied), autoLevel := s.lamp.lApp } }
      still := if p.boost then noteBoostSeq seq s.still else s.still }

/-- The index of the store with a pin, 0xFF when none has it (R24). -/
def pinIndex (s : State) (pin : RingEntry → Bool) : Nat :=
  ((storesInUse s).find? fun k => pin (storeAt s k)).getD 0xFF

/-- A frame that finds no selectable store is deferred (R24): a closed episode opens, with its event. -/
def deferFrame (s : State) : State :=
  let s := { s with capture := { s.capture with trig := .deferred } }
  if s.capture.deferralOpen then s
  else
    let ev := Event.captureDeferred (s.capture.seq + 1) (heldStores s) (pinIndex s (·.playPin))
      (pinIndex s (·.stillPin))
    emit ev { s with capture := { s.capture with deferralOpen := true } }

/-- The planned frame is due: selection, then the trigger or the deferral (R23, R24). -/
def captureSelect (s : State) : State :=
  match selectStore s with
  | some k => triggerStart k s
  | none => deferFrame s

/-- The unit waits for the planned frame, or selects at once when it is already due (R21, R29). -/
def awaitDue (s : State) : State :=
  let s := { s with capture := { s.capture with trig := .waiting } }
  match s.capture.plan with
  | none => s
  | some p => if p.dueAt ≤ s.now then captureSelect s else s

/-- After a completion or an abandonment (R29, R31): in RUNNING the next plan is fixed; else the unit enters IDLE. -/
def planNext (s : State) : State :=
  let s := { s with capture := { s.capture with plan := none, frame := none } }
  if s.part = .running then awaitDue (fixPlan s)
  else { s with capture := { s.capture with trig := .idle } }

/-- The ring table reports the release of a hold or a pin: a DEFERRED capture unit repeats its selection (R24). -/
def reportRelease (s : State) : State :=
  if s.capture.trig = .deferred then
    match selectStore s with
    | some k => triggerStart k s
    | none => s
  else s

end Sys2Proof.Machine
end

