-- ==== Sys2Proof/Machine/Stills.lean ====
section
/-! DEFINITION. The still unit (manual chapter 10): orders, the boost frame's outcome, buffer selection and the copy. -/

namespace Sys2Proof.Machine

/-- The origin code of a MARK or STOP order in STILL_MISSED. -/
def StillOrigin.code : StillOrigin → Nat
  | .stop => 1
  | .snapshot _ => 0
  | .mark => 0

/-- The end of an order that gave no still: a SNAPSHOT completes with `code` and its words, a MARK or STOP order is
lost with STILL_MISSED (R160, R162, R163, R165). -/
def orderFailed (o : StillOrder) (code w0 w1 : Nat) (cause entry : Nat) (s : State) : State :=
  match o.origin with
  | .snapshot slot => complete slot code w0 w1 s
  | .mark => emit (Event.stillMissed cause o.origin.code entry o.frameSeq) s
  | .stop => emit (Event.stillMissed cause o.origin.code entry o.frameSeq) s

/-- A still order's place in the queue is free (R160). -/
def orderRoom (s : State) : Bool := s.still.orders.length < 2

/-- An order joins the end of the queue, UNCLAIMED (R160). -/
def joinOrder (origin : StillOrigin) (s : State) : State :=
  { s with still := { s.still with orders := s.still.orders ++ [{ origin := origin }] } }

/-- A MARK or STOP order reaches the still unit (R160). -/
def autoStill (origin : StillOrigin) (s : State) : State :=
  if s.part = .running then
    if orderRoom s then joinOrder origin s
    else orderFailed { origin := origin } rcAborted 0 0 0 0xFF s
  else orderFailed { origin := origin } rcAborted 0 0 1 0xFF s

/-- The CLAIMED head order leaves the queue. -/
def dropHeadOrder (s : State) : State := { s with still := { s.still with orders := s.still.orders.tail } }

/-- The boost frame was abandoned (R162): the order that claimed it ends. -/
def boostLost (seq : Word) (s : State) : State :=
  match s.still.orders with
  | [] => s
  | o :: _ =>
    if o.claimed then orderFailed { o with frameSeq := seq } rcStillLost 0 seq.toNat 2 0xFF (dropHeadOrder s) else s

/-- The size of a still (section 10.1). -/
def stillSize (cfg : Cfg) : Nat := 64 + cfg.width * cfg.height * 2

/-- The bytes of the still table that its entries assign: state, buffer address, capacity, sequence filled (manual
section 12.6). The others are not read (R175). -/
def entryAssigns (i : Nat) : Bool := i % 16 == 0 || 4 ≤ i % 16

/-- A still table entry as read at selection: its state is EMPTY. -/
def entryEmpty (table : List Byte) (i : Nat) : Bool := u8 table (16 * i) == 1

/-- An EMPTY entry that can take the still (R163). -/
def entryUsable (cfg : Cfg) (table : List Byte) (i : Nat) : Bool :=
  entryEmpty table i && stillSize cfg ≤ u32 table (16 * i + 8) && u32 table (16 * i + 4) % 64 == 0

/-- The still pin is released and the release reported (R34). -/
def releaseStillPin (k : Nat) (s : State) : State :=
  reportRelease (updateStore k (fun e => { e with stillPin := false }) s)

/-- Selection fails (R163): the pin released at once, then the order's outcome (log entry 43). -/
def selectionFailed (o : StillOrder) (k : Nat) (seq : Word) (table : List Byte) (s : State) : State :=
  let s := releaseStillPin k s
  match (List.range 8).find? (entryEmpty table) with
  | none => orderFailed { o with frameSeq := seq } rcNoBuffer 0 seq.toNat 3 0xFF s
  | some i => orderFailed { o with frameSeq := seq } rcNoBuffer 1 seq.toNat 4 i s

/-- The entry is selected and the copy begins (R163, R164): the sequence filled, then FILLING; the store's 64-byte
header is read and written to the buffer as it stands now. The picture follows line by line until STILL_COPY_END (log
entry 11). Of the entry the sequence filled and the state alone are written (R159; log entry 45). -/
def beginCopy (o : StillOrder) (i k : Nat) (seq : Word) (table : List Byte) (s : State) : State :=
  let a := s.areaBase + 0x200 + 16 * i
  let buffer := u32 table (16 * i + 4)
  onward (portWrite (a + 12) (le32 seq.toNat) s) fun s =>
  onward (portWrite a [2] s) fun s =>
  match portRead (storeBase s.cfg k) 64 s with
  | none => enterFaulted s
  | some header =>
    onward (portWrite buffer header s) fun s =>
    { s with still := { s.still with copy := some { origin := o.origin, entry := i, buffer := buffer, store := k,
                                                    seq := seq } } }

/-- The boost frame has completed in store `k` (R163). With no claimed order the report is ignored (R165). -/
def boostDone (k : Nat) (seq : Word) (s : State) : State :=
  match s.still.orders with
  | [] => s
  | o :: _ =>
    if o.claimed then
      let s := dropHeadOrder s
      match portReadSome entryAssigns (s.areaBase + 0x200) 128 s with
      | none => enterFaulted s
      | some table =>
        match (List.range 8).find? (entryUsable s.cfg table) with
        | none => selectionFailed o k seq table s
        | some i => beginCopy o i k seq table s
    else s

/-- Line `l` of the copy's picture is read from the store and written to the buffer (R164). -/
def copyLine (c : StillCopy) (l : Nat) (s : State) : State :=
  match portRead (lineBase s.cfg c.store l) (s.cfg.width * 2) s with
  | none => enterFaulted s
  | some line => portWrite (c.buffer + 64 + l * s.cfg.width * 2) line s

/-- Lines of the copy's picture, in order; the first access that ends with an error response ends the copy. -/
def copyLines (c : StillCopy) : List Nat → State → State
  | [], s => s
  | l :: ls, s => onward (copyLine c l s) (copyLines c ls)

/-- The lines of the copy's picture that are still to be moved. -/
def linesLeft (cfg : Cfg) (c : StillCopy) : List Nat := (List.range (cfg.height - c.lines)).map (c.lines + ·)

/-- While no command waits, the copy under way moves on by one line (R164; log entry 11). -/
def stillTick (s : State) : State :=
  match s.still.copy with
  | none => s
  | some c =>
    if c.lines < s.cfg.height then
      onward (copyLine c c.lines s) fun s =>
      { s with still := { s.still with copy := some { c with lines := c.lines + 1 } } }
    else s

/-- The SNAPSHOT that a finished copy answers (R164). -/
def answerCopy (c : StillCopy) (s : State) : State :=
  match c.origin with
  | .snapshot slot => complete slot rcOk c.entry c.seq.toNat s
  | .mark => s
  | .stop => s

/-- The last still byte has been written (R164): FILLED, the pin released, STILL set, a SNAPSHOT completes OK. A DEFERRED
capture unit acts on the release before STILL and the completion (log entry 9). -/
def finishCopy (c : StillCopy) (s : State) : State :=
  onward (copyLines c (linesLeft s.cfg c) s) fun s =>
  onward (portWrite (s.areaBase + 0x200 + 16 * c.entry) [3] s) fun s =>
  onward (releaseStillPin c.store s) fun s =>
  onward (answerCopy c (setAttention attStill s)) fun s =>
  settleHalt { s with still := { s.still with copy := none } }

/-- At HALT every order ends at once, in queue order (R165). -/
def abortOrders : List StillOrder → State → State
  | [], s => s
  | o :: os, s =>
    onward (orderFailed o rcAborted 0 o.frameSeq.toNat 5 0xFF
      { s with still := { s.still with orders := os } }) (abortOrders os)

/-! ### The commands -/

/-- STILL_COPY_END (R164). -/
def execStillCopyEnd (moment : Nat) (s : State) : Host.Outcome State Fault Refusal :=
  match s.still.copy with
  | none => .next s
  | some c => .next (finishCopy c (advance moment s))

end Sys2Proof.Machine
end

