-- ==== Sys2Proof/Machine/ChainageUnit.lean ====
section
/-! DEFINITION. The chainage unit and the drive hold (manual chapter 7): candidates, acceptance, marks, the stop target,
surface commands, link loss, and the four requests it owns. -/

namespace Sys2Proof.Machine

/-! ### Arithmetic (R110) -/

/-- q / 65,536 rounded to the nearest integer, an exact half away from zero (R110 step 3). -/
def roundQ16 (q : Int) : Int := if q < 0 then -((-q + 32768) / 65536) else (q + 32768) / 65536

/-- The candidate of a count before it is brought into range (R110 steps 1 to 4). -/
def rawCandidate (c : Chainage) (count : Word) : Int :=
  let mm := roundQ16 ((count - c.originCount).toInt * c.scale)
  if c.forward then c.baseX + mm else c.baseX - mm

/-- A chainage brought into −999,994..9,999,994 (R110). -/
def intoRange (x : Int) : Int := clampInt Config.xMin Config.xMax x

/-! ### Marks (R118, R119) -/

/-- The next mark that arming sets from X (R118). -/
def armedMark (c : Chainage) : Option Int :=
  if c.markInterval = 0 then none
  else match c.travel with
    | .increasing => some ((Int.fdiv c.x c.markInterval + 1) * c.markInterval)
    | .decreasing => some ((-Int.fdiv (-c.x) c.markInterval - 1) * c.markInterval)

/-- The marks are armed from the present X. -/
def Chainage.arm (c : Chainage) : Chainage := { c with nextMark := armedMark c }

/-- The next mark has been crossed (R119). -/
def markCrossed (c : Chainage) (next : Int) : Bool :=
  match c.travel with
  | .increasing => next ≤ c.x
  | .decreasing => c.x ≤ next

/-- The number of marks crossed, once the next one is (R119). -/
def marksCrossed (c : Chainage) (next : Int) : Nat :=
  match c.travel with
  | .increasing => (Int.fdiv (c.x - next) c.markInterval + 1).toNat
  | .decreasing => (Int.fdiv (next - c.x) c.markInterval + 1).toNat

/-- The mark `n` intervals from `next` in the travel direction. -/
def markBeyond (c : Chainage) (next : Int) (n : Nat) : Int :=
  match c.travel with
  | .increasing => next + n * c.markInterval
  | .decreasing => next - n * c.markInterval

/-- The marks are evaluated at an accepted candidate (R119): one MARK, the flash, and at most one still order. -/
def evalMarks (s : State) : State :=
  match s.chainage.nextMark with
  | none => s
  | some next =>
    if markCrossed s.chainage next then
      let n := marksCrossed s.chainage next
      let last := markBeyond s.chainage next (n - 1)
      let x := s.chainage.x
      let s := { s with chainage := { s.chainage with nextMark := some (markBeyond s.chainage next n) } }
      let s := startFlash (emit (Event.mark last n x) s)
      if s.chainage.autoMark then autoStill .mark s else s
    else s

/-! ### The stop target (R121) -/

/-- X has reached the target in the travel direction. -/
def targetReached (c : Chainage) (target : Int) : Bool :=
  match c.travel with
  | .increasing => target ≤ c.x
  | .decreasing => c.x ≤ target

/-- The target fires: the flag and the reason (R121). -/
def Chainage.fire (c : Chainage) : Chainage :=
  { c with fired := true, reasons := { c.reasons with stopTarget := true } }

/-- The stop target is evaluated (R121). -/
def evalTarget (s : State) : State :=
  match s.chainage.stopTarget with
  | none => s
  | some target =>
    if s.chainage.fired = false ∧ targetReached s.chainage target then
      let s := emit (Event.stopReached target s.chainage.x) { s with chainage := s.chainage.fire }
      if s.chainage.autoStop then autoStill .stop s else s
    else s

/-! ### REEL (R108 to R112) -/

/-- The HELD flag is set, with its event when it was clear (R113). -/
def setHeld (linkLost : Bool) (s : State) : State :=
  if s.chainage.held then s
  else emit (Event.chainageHeld linkLost) { s with chainage := { s.chainage with held := true } }

/-- CHAINAGE_RESUMED, when HELD was set before (R109, R112). -/
def resumed (before : Bool) (count : Word) (s : State) : State :=
  if before then emit (Event.chainageResumed s.chainage.x count) s else s

/-- The origin is established (R109). -/
def establishOrigin (count : Word) (s : State) : State :=
  let c := s.chainage
  let c' : Chainage := { c with
    originCount := count, lastCount := count, countReceived := true, originValid := true
    x := c.baseX, saturated := false, rejects := 0, held := false }
  evalTarget (resumed c.held count { s with chainage := c'.arm })

/-- The values an acceptance sets (R112 steps 1 and 2). -/
def Chainage.accept (count : Word) (raw : Int) (c : Chainage) : Chainage :=
  { c with x := intoRange raw, lastCount := count, countReceived := true, saturated := intoRange raw != raw,
           rejects := 0, held := false }

/-- The acceptance of a candidate (R112), as a resync with CHAINAGE_RESYNC (R111). -/
def acceptCandidate (resync : Bool) (count : Word) (raw : Int) (s : State) : State :=
  let c := s.chainage
  let s := { s with chainage := c.accept count raw }
  let s := if resync then emit (Event.chainageResync c.x (intoRange raw) count) s else s
  evalTarget (evalMarks (resumed c.held count s))

/-- The candidate lies within the step limit of X (R111). -/
def withinStep (c : Chainage) (raw : Int) : Bool := (intoRange raw - c.x).natAbs ≤ c.stepLimit

/-- A REEL in RUNNING with the origin valid: accepted, taken as a resync on the third rejection, or rejected (R111). -/
def checkCandidate (count : Word) (s : State) : State :=
  let raw := rawCandidate s.chainage count
  if withinStep s.chainage raw then acceptCandidate false count raw s
  else if s.chainage.rejects < 2 then { s with chainage := { s.chainage with rejects := s.chainage.rejects + 1 } }
  else acceptCandidate true count raw s

/-- The chainage unit takes a REEL (R108). -/
def reelOp (count : Word) (fault : Bool) (s : State) : State :=
  if fault then setHeld false s
  else match s.chainage.run with
    | .stopped => { s with chainage := { s.chainage with lastCount := count, countReceived := true } }
    | .running => if s.chainage.originValid then checkCandidate count s else establishOrigin count s

/-! ### The link's other notices (R113, R123) -/

/-- A link-loss notice: HELD, and LINK_LOST with the link-loss hold on. -/
def linkLossNotice (s : State) : State :=
  let r := s.chainage.reasons
  setHeld true { s with chainage :=
    { s.chainage with reasons := { r with linkLost := r.linkLost || s.chainage.linkLossHold } } }

/-- A HALT_DRIVE or RELEASE_DRIVE message (R123). -/
def surfaceOp (kind : Byte) (hold : Bool) (s : State) : State :=
  let before := s.chainage.reasons.surface
  emit (Event.surfaceHold kind before hold)
    { s with chainage := { s.chainage with reasons := { s.chainage.reasons with surface := hold } } }

/-! ### CHAINAGE_RUN (R114 to R116) -/

/-- The values a zero sets (R115), marks armed and the fired flag clear. -/
def Chainage.zero (c : Chainage) : Chainage :=
  Chainage.arm
    { c with baseX := c.originValue, x := c.originValue, saturated := false, rejects := 0, fired := false,
             originCount := if c.countReceived then c.lastCount else c.originCount
             originValid := c.countReceived }

/-- The values a start sets (R116). -/
def Chainage.start (c : Chainage) : Chainage :=
  { c with baseX := c.x, rejects := 0, run := .running,
           originCount := if c.countReceived then c.lastCount else c.originCount
           originValid := c.originValid || c.countReceived }

/-- The values a stop sets (R116). -/
def Chainage.stop (c : Chainage) : Chainage := { c with run := .stopped, rejects := 0 }

/-- The run part of a CHAINAGE_RUN (R114 step 2): run selector YES 1, NO 2. -/
def Chainage.runStep (selector : Nat) (c : Chainage) : Chainage :=
  match selector, c.run with
  | 1, .stopped => c.start
  | 2, .running => c.stop
  | _, _ => c

/-- The code of the run state in records and result words. -/
def RunState.code : RunState → Nat
  | .stopped => 0 | .running => 1

/-- The zero of a CHAINAGE_RUN is taken (R114 step 1). -/
def zeroTaken (selector : Nat) (c : Chainage) : Bool := c.run == .stopped && selector != 1

/-- CHAINAGE_RUN (R114). -/
def chainageRunOp (r : Request) (s : State) : State :=
  let selector := u8 r.args 0
  let zeroSel := u8 r.args 1
  if 2 < selector ∨ 1 < zeroSel then badArgument r s
  else
    let taken := zeroTaken selector s.chainage
    let code := if zeroSel = 1 ∧ taken = false then rcZeroRefused else rcOk
    let s := if zeroSel = 1 ∧ taken then evalTarget { s with chainage := s.chainage.zero } else s
    let s := { s with chainage := s.chainage.runStep selector }
    complete r.slot code (wordOfInt s.chainage.x) s.chainage.run.code s

/-! ### CHAINAGE_CALIBRATE (R117) -/

/-- The rebase of step 1 of R117. -/
def Chainage.rebase (c : Chainage) : Chainage :=
  match c.run with
  | .stopped => c
  | .running => { c with baseX := c.x, originCount := if c.originValid then c.lastCount else c.originCount }

/-- The values a CHAINAGE_CALIBRATE sets (R117). -/
def Chainage.calibrate (args : List Byte) (c : Chainage) : Chainage :=
  let c := c.rebase
  Chainage.arm
    { c with scale := if bitAt args 0 0 then clampNat 1 16777215 (u32 args 4) else c.scale
             forward := if bitAt args 0 1 then s8 args 1 == 1 else c.forward
             originValue := if bitAt args 0 2 then intoRange (s32 args 8) else c.originValue
             stepLimit := if bitAt args 0 3 then clampNat 1 65535 (u32 args 12) else c.stepLimit }

/-- A CHAINAGE_CALIBRATE is refused: nothing present, or a present direction that is neither +1 nor −1. -/
def calibrateRefused (args : List Byte) : Bool :=
  u8 args 0 % 16 == 0 || (bitAt args 0 1 && s8 args 1 != 1 && s8 args 1 != -1)

/-- A present value of a CHAINAGE_CALIBRATE was brought into range. -/
def calibrateClamped (args : List Byte) : Bool :=
  (bitAt args 0 0 && clampNat 1 16777215 (u32 args 4) != u32 args 4)
    || (bitAt args 0 2 && intoRange (s32 args 8) != s32 args 8)
    || (bitAt args 0 3 && clampNat 1 65535 (u32 args 12) != u32 args 12)

/-- CHAINAGE_CALIBRATE (R117). -/
def chainageCalibrateOp (r : Request) (s : State) : State :=
  if calibrateRefused r.args then badArgument r s
  else
    let c := s.chainage.calibrate r.args
    complete r.slot (if calibrateClamped r.args then rcClamped else rcOk) (wordOfInt c.x) c.scale { s with chainage := c }

/-! ### MARK_SET (R120) -/

/-- A mark interval brought into range: 0 stays off (R120). -/
def markIntervalInRange (n : Nat) : Nat := if n = 0 then 0 else clampNat 100 100000 n

/-- A MARK_SET is refused: nothing present, or a present travel direction or target form that names no value. -/
def markSetRefused (args : List Byte) : Bool :=
  u8 args 0 % 32 == 0 || (bitAt args 0 1 && 1 < u8 args 1) || (bitAt args 0 2 && 1 < u8 args 2)

/-- A present interval or target of a MARK_SET was brought into range. -/
def markSetClamped (args : List Byte) : Bool :=
  (bitAt args 0 0 && markIntervalInRange (u32 args 4) != u32 args 4)
    || (bitAt args 0 2 && u8 args 2 == 0 && intoRange (s32 args 8) != s32 args 8)

/-- The values a MARK_SET sets (R120), marks armed. -/
def Chainage.markSet (args : List Byte) (c : Chainage) : Chainage :=
  Chainage.arm
    { c with markInterval := if bitAt args 0 0 then markIntervalInRange (u32 args 4) else c.markInterval
             travel := if bitAt args 0 1 then (if u8 args 1 = 0 then .increasing else .decreasing) else c.travel
             stopTarget := if bitAt args 0 2 then
                 (if u8 args 2 = 0 then some (intoRange (s32 args 8)) else none) else c.stopTarget
             fired := c.fired && !bitAt args 0 2
             autoMark := if bitAt args 0 3 then bitAt args 3 0 else c.autoMark
             autoStop := if bitAt args 0 4 then bitAt args 3 1 else c.autoStop }

/-- MARK_SET (R120). -/
def markSetOp (r : Request) (s : State) : State :=
  if markSetRefused r.args then badArgument r s
  else
    let s := evalTarget { s with chainage := s.chainage.markSet r.args }
    complete r.slot (if markSetClamped r.args then rcClamped else rcOk)
      (wordOfInt (s.chainage.nextMark.getD 0)) (if s.chainage.fired then 1 else 0) s

/-! ### DRIVE_HOLD (R124) -/

/-- The reason set after a DRIVE_HOLD while the link is in `link` (R124). -/
def HoldReasons.driveHold (args : List Byte) (link : LinkState) (r : HoldReasons) : HoldReasons :=
  { r with host := if u8 args 0 = 1 then true else if u8 args 0 = 2 then false else r.host
           stopTarget := r.stopTarget && !bitAt args 1 0
           linkLost := r.linkLost && !(bitAt args 1 1 && link != .lost) }

/-- DRIVE_HOLD (R124). A LINK_LOST clear in LOST is answered STILL_ACTIVE whether or not the reason is present (log
entry 42). -/
def driveHoldOp (r : Request) (s : State) : State :=
  if 2 < u8 r.args 0 then badArgument r s
  else
    let reasons := s.chainage.reasons.driveHold r.args s.link.state
    let code := if bitAt r.args 1 1 = true ∧ s.link.state = .lost then rcStillActive else rcOk
    complete r.slot code reasons.code 0 { s with chainage := { s.chainage with reasons := reasons } }

/-! ### The commands -/

/-- CHAINAGE_RUN (R114). -/
def execChainageRun (s : State) : Host.Outcome State Fault Refusal :=
  .next (handOverKind kChainageRun chainageRunOp s)

/-- CHAINAGE_CALIBRATE (R117). -/
def execChainageCalibrate (s : State) : Host.Outcome State Fault Refusal :=
  .next (handOverKind kChainageCalibrate chainageCalibrateOp s)

/-- MARK_SET (R120). -/
def execMarkSet (s : State) : Host.Outcome State Fault Refusal :=
  .next (handOverKind kMarkSet markSetOp s)

/-- DRIVE_HOLD (R124). -/
def execDriveHold (s : State) : Host.Outcome State Fault Refusal :=
  .next (handOverKind kDriveHold driveHoldOp s)

end Sys2Proof.Machine
end

