-- ==== Sys2Proof/Machine/LinkUnit.lean ====
section
/-! DEFINITION. The tether link (manual chapter 8): the receiver, the CRC, the filter, routing, the silence timer, the
uplink queue and the transmitter, and the commands of the link. -/

namespace Sys2Proof.Machine

/-- The link unit is active (R126): in RUNNING, HALTING, HALTED, and in FAULTED with a configuration in force. -/
def linkActive (s : State) : Bool :=
  match s.part with
  | .running => true
  | .halting => true
  | .halted => true
  | .faulted => s.cfgTaken
  | .off => false
  | .loading => false

/-! ### The CRC (R129) -/

/-- One step of the CRC register. -/
def crcStep (r : BitVec 16) : BitVec 16 := if r.msb then (r <<< 1) ^^^ 0x1021 else r <<< 1

/-- The register after eight steps. -/
def crcSteps (r : BitVec 16) : BitVec 16 :=
  crcStep (crcStep (crcStep (crcStep (crcStep (crcStep (crcStep (crcStep r)))))))

/-- One byte added to the CRC register. -/
def crcByte (r : BitVec 16) (b : Byte) : BitVec 16 := crcSteps (r ^^^ (b.setWidth 16 <<< 8))

/-- The CRC of a list of bytes. -/
def crcOf (bs : List Byte) : BitVec 16 := bs.foldl crcByte 0xFFFF

/-! ### The receiver (R128) -/

/-- A good message. -/
structure LinkMsg where
  address : Byte
  kind : Byte
  payload : List Byte
  deriving DecidableEq, Repr

/-- One byte taken without a framing error: the receiver after it, and the good message it ends, if any (R128). A
receiver back in HUNT holds no message. -/
def rxByte (rx : Rx) (b : Byte) : Rx × Option LinkMsg :=
  match rx.state with
  | .hunt => (if b = 0xC5 then { state := .address, crc := 0xFFFF } else rx, none)
  | .address => ({ rx with state := .kind, address := b, crc := crcByte rx.crc b }, none)
  | .kind => ({ rx with state := .length, kind := b, crc := crcByte rx.crc b }, none)
  | .length =>
    if 32 < b.toNat then ({}, none)
    else ({ rx with state := if b.toNat = 0 then .crcHigh else .payload, length := b.toNat,
                    crc := crcByte rx.crc b }, none)
  | .payload =>
    let payload := rx.payload ++ [b]
    ({ rx with state := if payload.length < rx.length then .payload else .crcHigh, payload := payload,
               crc := crcByte rx.crc b }, none)
  | .crcHigh => ({ rx with state := .crcLow, crcHigh := b }, none)
  | .crcLow => ({}, if rx.crcHigh ++ b = rx.crc then some ⟨rx.address, rx.kind, rx.payload⟩ else none)

/-- Bytes taken one after another: the receiver after them and the good messages among them, in order. -/
def rxBytes : Rx → List Byte → Rx × List LinkMsg
  | rx, [] => (rx, [])
  | rx, b :: bs =>
    let r := rxByte rx b
    let rest := rxBytes r.1 bs
    (rest.1, r.2.toList ++ rest.2)

/-! ### The filter (R130) -/

/-- The kind is a defined downlink kind and the length the one it requires. -/
def kindAndLength (kind : Byte) (n : Nat) : Bool :=
  match kind.toNat with
  | 0x01 => n == 5
  | 0x02 => n == 2
  | 0x03 => 1 ≤ n && n ≤ 32
  | 0x04 => n == 0
  | 0xF0 => n == 0
  | 0xF1 => n == 0
  | k => 0x20 ≤ k && k ≤ 0x7F && n ≤ 32

/-- The filter accepts a good message. -/
def filterAccepts (cfg : Cfg) (m : LinkMsg) : Bool :=
  m.kind != 0
    && (m.address == 0xFF || (m.address ^^^ cfg.unitMatch) &&& cfg.unitMask == 0)
    && (cfg.management || m.kind.toNat < 0xF0)
    && kindAndLength m.kind m.payload.length

/-! ### Acceptance and routing (R131, R132) -/

/-- The count of a REEL: four payload bytes, most significant first. -/
def reelCount (payload : List Byte) : Word :=
  BitVec.ofNat 32 (16777216 * u8 payload 0 + 65536 * u8 payload 1 + 256 * u8 payload 2 + u8 payload 3)

/-- A message is handed to its owner (R131). -/
def route (m : LinkMsg) (s : State) : State :=
  match m.kind.toNat with
  | 0x01 => reelOp (reelCount m.payload) (bitAt m.payload 4 0) s
  | 0x02 => lampDo (lampGrant s.part s.cfg (256 * u8 m.payload 0 + u8 m.payload 1) s.lamp) s
  | 0x03 => if s.part = .faulted then s else { s with overlay := appendFifo m.payload s.overlay }
  | 0x04 => s
  | 0xF0 => surfaceOp m.kind true s
  | 0xF1 => surfaceOp m.kind false s
  | _ => emit (Event.linkMessage m.kind m.payload) s

/-- The silence timer reloads and the link becomes UP, with LINK_UP from DOWN or LOST (R131). -/
def linkHeard (kind : Byte) (s : State) : State :=
  let left := s.link.state
  let s := { s with link := { s.link with state := .up, silence := some (s.now + s.cfg.silenceMs * 1000) } }
  if left = .up then s else emit (Event.linkUp left kind) s

/-- An accepted message (R131). -/
def acceptMessage (m : LinkMsg) (s : State) : State := route m (linkHeard m.kind s)

/-- The receiver's state after bytes, in the link unit. -/
def setRx (rx : Rx) (s : State) : State := { s with link := { s.link with rx := rx } }

/-- The bytes of an accepted message arrive, the one good message they hold satisfying `isIt`; bytes that do not make
such a happening leave the state (log entry 29). -/
def receive (isIt : LinkMsg → Bool) (moment : Nat) (bytes : List Byte) (s : State) : State :=
  let r := rxBytes s.link.rx bytes
  match r.2 with
  | [m] =>
    if linkActive s && filterAccepts s.cfg m && isIt m then acceptMessage m (setRx r.1 (advance moment s)) else s
  | _ => s

/-- The REEL would be taken as a resync: the third rejection in a row (R111). -/
def resyncDue (s : State) (m : LinkMsg) : Bool :=
  s.chainage.run == .running && s.chainage.originValid && !bitAt m.payload 4 0
    && !withinStep s.chainage (rawCandidate s.chainage (reelCount m.payload)) && 2 ≤ s.chainage.rejects

/-! ### The uplink (R135 to R138) -/

/-- The 11 payload bytes of a HEAD_STATUS (R136). -/
def headStatusPayload (s : State) : List Byte :=
  be32i s.chainage.x ++ [headStatusFlags s, byte s.chainage.reasons.code] ++ be16 s.lamp.total
    ++ be16i (s.lamp.temp.getD Config.noTemperature) ++ [byte s.part.code]

/-- A HEAD_STATUS with a payload replaces the waiting one in its place, or joins the queue at its end (R136). -/
def placeStatus (payload : List Byte) (queue : List UplinkMsg) : List UplinkMsg :=
  let m : UplinkMsg := { host := none, kind := 0x81, payload := payload }
  if queue.any fun q => q.host.isNone then queue.map fun q => if q.host.isNone then m else q
  else queue ++ [m]

/-- A HEAD_STATUS is built and the cadence count returns to 0. -/
def buildHeadStatus (s : State) : State :=
  { s with link := { s.link with cadence := 0, queue := placeStatus (headStatusPayload s) s.link.queue } }

/-- The next output frame start brings the cadence count to K (R136). -/
def statusNext (s : State) : Bool :=
  linkActive s && s.cfg.cadenceK != 0 && s.cfg.cadenceK ≤ s.link.cadence + 1

/-- The link unit's work at an output frame start (R136). -/
def linkFrame (s : State) : State :=
  if statusNext s then buildHeadStatus s
  else if linkActive s ∧ s.cfg.cadenceK ≠ 0 then { s with link := { s.link with cadence := s.link.cadence + 1 } }
  else s

/-- The bytes of an uplink message on the line (R135). -/
def uplinkBytes (unitMatch : Byte) (m : UplinkMsg) : List Byte :=
  let body := unitMatch :: m.kind :: byte m.payload.length :: m.payload
  let crc := crcOf body
  0xC5 :: body ++ [crc.extractLsb' 8 8, crc.extractLsb' 0 8]

/-- The transmitter may start a message (R135). -/
def mayTransmit (s : State) : Bool :=
  linkActive s && s.part != .halting && s.link.sending.isNone

/-- The oldest queued message leaves its place and goes on the wire (R135). -/
def transmitStart (s : State) : State :=
  match s.link.queue with
  | [] => s
  | m :: rest =>
    { s with link := { s.link with queue := rest, sending := some { msg := m, wire := uplinkBytes s.cfg.unitMatch m } } }

/-- The end of the sending of a message (R137, R138): the transmitter is IDLE, a host message completes OK, and a HALT
may end with it. -/
def transmitEnd (m : UplinkMsg) (s : State) : State :=
  let s := { s with link := { s.link with sending := none } }
  settleHalt (match m.host with
    | none => s
    | some slot => complete slot rcOk m.payload.length s.playout.frames.toNat s)

/-- Host messages waiting at a HALT complete ABORTED in the order they were taken (R138). -/
def abortUplinks : List UplinkMsg → State → State
  | [], s => s
  | m :: ms, s => match m.host with
    | none => abortUplinks ms s
    | some slot => onward (complete slot rcAborted 0 0 s) (abortUplinks ms)

/-- The link unit's part in a HALT: the host places are freed (R138), all of them before the first completion is written
(log entry 63). -/
def haltLink (s : State) : State :=
  abortUplinks s.link.queue
    { s with link := { s.link with queue := s.link.queue.filter fun m => m.host.isNone } }

/-- The UPLINK_SEND is refused: a kind outside 0xA0..0xBF or a length above 32 (R137). -/
def uplinkRefused (args : List Byte) : Bool := u8 args 0 < 0xA0 || 0xBF < u8 args 0 || 32 < u8 args 1

/-- UPLINK_SEND (R137): the message joins the queue in a host place; in HALTING it is ended ABORTED (R8). -/
def uplinkSendOp (r : Request) (s : State) : State :=
  if uplinkRefused r.args then badArgument r s
  else if s.part = .halting then complete r.slot rcAborted 0 0 s
  else
    let m : UplinkMsg := { host := some r.slot, kind := r.args.getD 0 0, payload := slice r.args 4 (u8 r.args 1) }
    { s with link := { s.link with queue := s.link.queue ++ [m] } }

/-- At entry to LOADING the link unit becomes inactive (R126, R138): the receiver drops its message, the HEAD_STATUS
place is emptied, the silence timer stops; the message on the wire is sent to its end (R138). -/
def linkInactive (l : Link) : Link :=
  { l with rx := {}, silence := none, queue := l.queue.filter fun m => m.host.isSome }

/-- The values a START that passes its checks sets (R126); the message on the wire stays (log entry 14). -/
def linkTakeConfig (l : Link) : Link := { l with rx := {}, state := .down, silence := none, cadence := 0, queue := [] }

/-- The silence timer is loaded afresh at the return to HALTED from a refused START, but in LOST (R126, log entry
15). -/
def restartSilence (s : State) : State :=
  { s with link := { s.link with silence :=
    if s.link.state = .lost then none else some (s.now + s.cfg.silenceMs * 1000) } }

/-! ### The commands -/

/-- START_BYTE (R128): the receiver in HUNT takes 0xC5. -/
def execStartByte (s : State) : Host.Outcome State Fault Refusal :=
  .next (if linkActive s ∧ s.link.rx.state = .hunt then setRx (rxByte s.link.rx 0xC5).1 s else s)

/-- REEL (R108, R131). -/
def execReel (moment : Nat) (bytes : List Byte) (s : State) : Host.Outcome State Fault Refusal :=
  .next (receive (fun m => m.kind == 0x01) moment bytes s)

/-- CHAINAGE_RESYNC (R111; log entry 3). -/
def execChainageResync (moment : Nat) (bytes : List Byte) (s : State) : Host.Outcome State Fault Refusal :=
  .next (receive (fun m => m.kind == 0x01 && resyncDue s m) moment bytes s)

/-- POWER_GRANT (R79, R131). -/
def execPowerGrant (moment : Nat) (bytes : List Byte) (s : State) : Host.Outcome State Fault Refusal :=
  .next (receive (fun m => m.kind == 0x02) moment bytes s)

/-- OPERATOR_TEXT (R69, R131). -/
def execOperatorText (moment : Nat) (bytes : List Byte) (s : State) : Host.Outcome State Fault Refusal :=
  .next (receive (fun m => m.kind == 0x03) moment bytes s)

/-- KEEPALIVE (R131). -/
def execKeepalive (moment : Nat) (bytes : List Byte) (s : State) : Host.Outcome State Fault Refusal :=
  .next (receive (fun m => m.kind == 0x04) moment bytes s)

/-- A message of kind 0x20..0x7F (R132). -/
def execSurfaceMessage (moment : Nat) (bytes : List Byte) (s : State) : Host.Outcome State Fault Refusal :=
  .next (receive (fun m => 0x20 ≤ m.kind.toNat && m.kind.toNat ≤ 0x7F) moment bytes s)

/-- HALT_DRIVE (R123). -/
def execHaltDrive (moment : Nat) (bytes : List Byte) (s : State) : Host.Outcome State Fault Refusal :=
  .next (receive (fun m => m.kind == 0xF0) moment bytes s)

/-- RELEASE_DRIVE (R123). -/
def execReleaseDrive (moment : Nat) (bytes : List Byte) (s : State) : Host.Outcome State Fault Refusal :=
  .next (receive (fun m => m.kind == 0xF1) moment bytes s)

/-- MESSAGE_DROPPED (R127, R128): the receiver ends in HUNT with no good message; a framing error after the bytes
drops the message in any receiver state. -/
def execMessageDropped (bytes : List Byte) (framingError : Bool) (s : State) : Host.Outcome State Fault Refusal :=
  let r := rxBytes s.link.rx bytes
  .next (if linkActive s ∧ r.2 = [] ∧ (framingError = true ∨ r.1.state = .hunt) then setRx {} s else s)

/-- MESSAGE_DISCARDED (R130): the one good message the bytes hold is not accepted. -/
def execMessageDiscarded (bytes : List Byte) (s : State) : Host.Outcome State Fault Refusal :=
  let r := rxBytes s.link.rx bytes
  match r.2 with
  | [m] => .next (if linkActive s ∧ filterAccepts s.cfg m = false then setRx r.1 s else s)
  | _ => .next s

/-- RX_GAP_TIMEOUT (R127). -/
def execRxGapTimeout (s : State) : Host.Outcome State Fault Refusal :=
  .next (if linkActive s then setRx {} s else s)

/-- LINK_LOST (R133). -/
def execLinkLost (s : State) : Host.Outcome State Fault Refusal :=
  match s.link.silence with
  | none => .next s
  | some e =>
    let left := s.link.state
    .next (if linkActive s ∧ left ≠ .lost then
      let s := advance e { s with link := { s.link with state := .lost, silence := none } }
      linkLossNotice (emit (Event.linkLost left s.cfg.silenceMs) s)
    else s)

/-- HEAD_STATUS (R136; log entry 3). -/
def execHeadStatus (s : State) : Host.Outcome State Fault Refusal :=
  .next (if statusNext s then buildHeadStatus s else s)

/-- UPLINK_TRANSMIT_START (R135). -/
def execUplinkTransmitStart (s : State) : Host.Outcome State Fault Refusal :=
  .next (if mayTransmit s then transmitStart s else s)

/-- UPLINK_SEND_END (R135, R137, R138). -/
def execUplinkSendEnd (s : State) : Host.Outcome State Fault Refusal :=
  match s.link.sending with
  | none => .next s
  | some t => .next (transmitEnd t.msg s)

/-- UPLINK_SEND (R137). -/
def execUplinkSend (s : State) : Host.Outcome State Fault Refusal :=
  .next (handOverKind kUplinkSend uplinkSendOp s)

end Sys2Proof.Machine
end

