-- ==== Sys2Proof/Machine/StatusRecord.lean ====
section
/-! DEFINITION. The status record (manual sections 11.4 and 12.5): its 256 bytes from the state, and its writing. -/

namespace Sys2Proof.Machine

/-! Codes of manual section 12.5. -/

def BusState.code : BusState → Nat
  | .idle => 0 | .waitFree => 1 | .active => 2 | .recovery => 3 | .fault => 4

def TrigState.code : TrigState → Nat
  | .idle => 0 | .waiting => 1 | .deferred => 2 | .exposing => 3 | .readout => 4

def GainState.code : GainState → Nat
  | .idle => 0 | .queued => 1 | .writing => 2

def ExpMode.code : ExpMode → Nat
  | .auto => 0 | .manual => 1

/-- T_cap of the current plan, 0 when no plan is fixed (R40). -/
def planCap (c : Capture) : Nat :=
  match c.plan with
  | none => 0
  | some p => p.tCap

/-- Bytes 0x00 to 0x17: output frame number, part, list, link, bus and drive hold. -/
def statusPart (part : PartState) (s : State) : List Byte :=
  le32 s.playout.frames.toNat
    ++ [byte part.code, byte s.list.listState.code, byte s.refusalCode, byte s.link.state.code]
    ++ le16 s.refusalOffset ++ [byte s.bus.state.code, byte s.bus.queue.length]
    ++ le16 s.list.reqIndex ++ [byte s.list.reqLap, byte s.list.evLap] ++ le16 s.list.evIndex
    ++ [flagByte s.bus.pendingGain.isSome, byte s.chainage.reasons.code] ++ le32 s.list.missed.toNat

/-- Bytes 0x18 to 0x2B: the capture unit (R40). -/
def statusCapture (s : State) : List Byte :=
  [byte s.capture.trig.code, flagByte s.capture.los, byte s.capture.abandons, byte (heldStores s)]
    ++ le32 s.capture.seq.toNat ++ le32 s.capture.completed.toNat ++ le32 s.capture.abandoned.toNat
    ++ le32 (planCap s.capture)

/-- Bytes 0x2C to 0x3B: the playout unit (R56). -/
def statusPlayout (p : Playout) : List Byte :=
  [byte (p.shown.getD 0xFF), byte p.consec, flagByte p.stallLatch, flagByte p.stallOpen]
    ++ le32 p.lastShown.toNat ++ le32 p.underruns.toNat ++ le32 p.notShown.toNat

/-- Bytes 0x3C to 0x52: the lamp unit (R92). -/
def statusLamp (l : Lamp) : List Byte :=
  ((List.range 6).flatMap fun i => le16 ((l.channels.getD i {}).applied))
    ++ le16 l.budget ++ le16 l.total ++ le16 l.ceiling ++ le16i (l.temp.getD Config.noTemperature)
    ++ le16 l.tempAge ++ [lampFlags l]

/-- The metering mean of the last frame report (R106), 0 with none (log entry 55). -/
def lastMean (e : Exposure) : Nat :=
  match e.last with
  | none => 0
  | some r => r.mean

/-- The sequence of the last frame report (R106), 0 with none (log entry 55). -/
def lastSeq (e : Exposure) : Word :=
  match e.last with
  | none => 0
  | some r => r.seq

/-- Bytes 0x53 to 0x65: the exposure unit (R106). -/
def statusExposure (e : Exposure) : List Byte :=
  [byte e.mode.code] ++ le16 e.planL ++ le16 e.lCap ++ le32 e.planT ++ le16 e.planG ++ le16 e.gainInEffect
    ++ le16 (e.handedGain.getD 0)
    ++ [byte e.gws.code, exposureFlags e, byte e.failures, byte (lastMean e)]

/-- Bytes 0x66 to 0x7F: the chainage unit (R125), with the last report's sequence at 0x68. The next mark and the stop
target are 0 with none (log entry 55). -/
def statusChainage (e : Exposure) (c : Chainage) : List Byte :=
  [byte c.run.code, chainageFlags c] ++ le32 (lastSeq e).toNat
    ++ le32i c.x ++ le32i (c.nextMark.getD 0) ++ le32i (c.stopTarget.getD 0) ++ padTo 8 [byte c.rejects]

/-- One poll slot, 8 bytes (R158); past the bytes it holds the field is 0 (log entry 55). -/
def statusPoll (p : PollSlot) : List Byte :=
  [flagByte p.held, byte p.failures] ++ le16 p.age ++ padTo 4 p.bytes

/-- The whole record, with the part state it reports; positions not assigned are 0 (R175). -/
def statusRecord (part : PartState) (s : State) : List Byte :=
  statusPart part s ++ statusCapture s ++ statusPlayout s.playout ++ statusLamp s.lamp ++ statusExposure s.exposure
    ++ statusChainage s.exposure s.chainage
    ++ ((List.range 8).flatMap fun j => statusPoll (s.bus.polls.getD j {}).slot)
    ++ List.replicate 60 0 ++ le32 s.playout.frames.toNat

/-- The record is written at a work area base, from its head to its tail: the output frame number first and again last
(R172, R176). The rules leave the order of the body open: the model writes it by rising offset (log entry 56). -/
def writeStatus (base : Nat) (part : PartState) (s : State) : State := portWrite (base + 0x100) (statusRecord part s) s

/-- What the blocks publish at an output frame start that found the state `before` and has brought about `s`: the head bus
unit and the exposure unit the values from before that start, the slot ages increased for it (R106, R158); every other
block the values in force (R40, R56, R92, R125, R139, R173; log entry 44). -/
def published (before s : State) : State :=
  { s with bus := { before.bus with polls := before.bus.polls.map agePoll }, exposure := before.exposure }

/-- The status writer's work at an output frame start that found the state `before` (R172), in the order of
`writeStatus` (log entry 56). -/
def statusFrame (before s : State) : State :=
  let write := portWrite (s.areaBase + 0x100) (statusRecord s.part (published before s)) s
  match s.part with
  | .running => write
  | .halting => write
  | .halted => write
  | .off => s
  | .loading => s
  | .faulted => s

end Sys2Proof.Machine
end

