-- ==== Sys2Proof/Machine/Configuration.lean ====
section
/-! DEFINITION. The configuration record (manual section 12.2): its fields, and the checks a START makes of them in
increasing order of offset (R5). -/

namespace Sys2Proof.Machine

/-! ### Reading the fields -/

/-- The byte positions of the record that section 12.2 assigns; the part reads no other (R175; log entry 46). -/
def configAssigns (i : Nat) : Bool :=
  i < 0xE0 && i != 0x11 && i != 0x16 && i != 0x17 && i != 0x41 && i != 0x42 && i != 0x43 && i != 0x7F && i != 0xAD

def lampModeOf (n : Nat) : LampMode := if n = 1 then .steady else if n = 2 then .strobe else .off
def lampControlOf (n : Nat) : LampControl := if n = 0 then .auto else .manual
def pollRoleOf (n : Nat) : PollRole := if n = 1 then .temperature else .general

/-- Lamp channel `i` of the record. -/
def channelOf (r : List Byte) (i : Nat) : ChannelCfg :=
  let o := 0x44 + 8 * i
  { mode := lampModeOf (u8 r o), control := lampControlOf (u8 r (o + 1)), iFull := u16 r (o + 2),
    manual := u16 r (o + 4), standby := u16 r (o + 6) }

/-- Poll entry `j` of the record. -/
def pollEntryOf (r : List Byte) (j : Nat) : PollEntry :=
  let o := 0xB0 + 6 * j
  { enable := flagAt r o, address := u8 r (o + 1), register := r.getD (o + 2) 0, length := u8 r (o + 3),
    period := u8 r (o + 4), role := pollRoleOf (u8 r (o + 5)) }

/-- The values of a configuration record. -/
def parseCfg (r : List Byte) : Cfg where
  slots := u16 r 0x00
  eventCount := u16 r 0x02
  listBase := u32 r 0x04
  eventBase := u32 r 0x08
  ringBase := u32 r 0x0C
  stores := u8 r 0x10
  width := u16 r 0x12
  height := u16 r 0x14
  stride := u32 r 0x18
  tSmin := u32 r 0x1C
  tRo := u32 r 0x20
  guardMs := u8 r 0x24
  burnIn := flagAt r 0x25
  winLeft := u16 r 0x26
  winTop := u16 r 0x28
  winWidth := u16 r 0x2A
  winHeight := u16 r 0x2C
  cadence := u8 r 0x2E
  underrunFill := flagAt r 0x2F
  stallLimit := u8 r 0x30
  fillY := r.getD 0x31 0
  fillCb := r.getD 0x32 0
  fillCr := r.getD 0x33 0
  pollMs := u8 r 0x34
  scale := u8 r 0x35
  stampEnable := flagAt r 0x36
  stampRow := u8 r 0x37
  stampCol := u8 r 0x38
  stampAttr := r.getD 0x39 0
  markAttr := r.getD 0x3A 0
  markFlash := u8 r 0x3B
  blinkPeriod := u8 r 0x3C
  bannerEnable := flagAt r 0x3D
  bannerRow := u8 r 0x3E
  bannerAttr := r.getD 0x3F 0
  scrollSpeed := u8 r 0x40
  channels := (List.range 6).map (channelOf r)
  pwmHz := u16 r 0x74
  budget := u16 r 0x76
  stillLevel := u16 r 0x78
  tDerate := s16 r 0x7A
  tCut := s16 r 0x7C
  hysteresis := u8 r 0x7E
  floor := u16 r 0x80
  expAuto := u8 r 0x82 == 0
  damping := u8 r 0x83
  tMin := u32 r 0x84
  tPref := u32 r 0x88
  tMax := u32 r 0x8C
  gMax := u16 r 0x90
  lMin := u16 r 0x92
  lMax := u16 r 0x94
  target := u8 r 0x96
  tolerance := u8 r 0x97
  initT := u32 r 0x98
  initG := u16 r 0x9C
  initL := u16 r 0x9E
  sensorAddr := u8 r 0xA0
  gainReg := r.getD 0xA1 0
  linkLossHold := flagAt r 0xA2
  baud := u8 r 0xA3
  unitMatch := r.getD 0xA4 0
  unitMask := r.getD 0xA5 0
  management := flagAt r 0xA6
  cadenceK := u8 r 0xA7
  silenceMs := u16 r 0xA8
  busRate := u8 r 0xAA
  retryLimit := u8 r 0xAB
  stretchMs := u8 r 0xAC
  busyMs := u16 r 0xAE
  poll := (List.range 8).map (pollEntryOf r)

/-! ### Refusal codes (manual section 12.5) -/

def refNone : Nat := 0
def refOutOfRange : Nat := 1
def refRingTooSmall : Nat := 2
def refStrideTooSmall : Nat := 3
def refNotAligned : Nat := 4
def refListSize : Nat := 5

/-! ### The checks (R5) -/

/-- A check of a START: the offset and code it refuses with, and whether it passes. -/
structure Check where
  offset : Nat
  code : Nat
  ok : Bool
  deriving DecidableEq, Repr

/-- A field within a range. -/
def within (offset lo hi x : Nat) : Check := ⟨offset, refOutOfRange, lo ≤ x && x ≤ hi⟩

/-- A field or relation that refuses with OUT_OF_RANGE. -/
def inRange (offset : Nat) (ok : Bool) : Check := ⟨offset, refOutOfRange, ok⟩

/-- Lists, ring and picture: 0x00 to 0x1B. -/
def regionChecks (c : Cfg) : List Check :=
  [⟨0x00, refListSize, [16, 32, 64, 128, 256].contains c.slots⟩,
   ⟨0x02, refListSize, [32, 64, 128, 256, 512, 1024].contains c.eventCount⟩,
   ⟨0x04, refNotAligned, c.listBase % 64 == 0⟩,
   ⟨0x08, refNotAligned, c.eventBase % 16 == 0⟩,
   ⟨0x0C, refNotAligned, c.ringBase % 64 == 0⟩,
   ⟨0x10, refRingTooSmall, 3 ≤ c.stores⟩,
   ⟨0x10, refOutOfRange, c.stores ≤ Config.maxStores⟩,
   inRange 0x12 (320 ≤ c.width && c.width ≤ 1920 && c.width % 16 == 0),
   inRange 0x14 (240 ≤ c.height && c.height ≤ 1080 && c.height % 8 == 0),
   ⟨0x18, refNotAligned, c.stride % 64 == 0⟩,
   ⟨0x18, refStrideTooSmall, 64 + c.width * c.height * 2 ≤ c.stride⟩]

/-- The capture unit: 0x1C to 0x2D. A window's left with width, and its top with height, are checked at the later field
of each pair (log entry 22). -/
def captureChecks (r : List Byte) (c : Cfg) : List Check :=
  [within 0x1C 5000 200000 c.tSmin, within 0x20 1000 100000 c.tRo, within 0x24 1 50 c.guardMs, within 0x25 0 1 (u8 r 0x25),
   inRange 0x26 (c.winLeft % 16 == 0), inRange 0x28 (c.winTop % 8 == 0),
   inRange 0x2A (16 ≤ c.winWidth && c.winWidth % 16 == 0 && c.winLeft + c.winWidth ≤ c.width),
   inRange 0x2C (8 ≤ c.winHeight && c.winHeight % 8 == 0 && c.winTop + c.winHeight ≤ c.height)]

/-- Playout, list poll interval and overlay: 0x2E to 0x40. -/
def pictureChecks (r : List Byte) (c : Cfg) : List Check :=
  [inRange 0x2E (c.cadence == 25 || c.cadence == 30), within 0x2F 0 1 (u8 r 0x2F), within 0x30 1 255 c.stallLimit,
   within 0x34 0 100 c.pollMs,
   within 0x35 1 2 c.scale, within 0x36 0 1 (u8 r 0x36),
   inRange 0x37 (c.stampRow < visibleRows c && c.stampCol + 10 ≤ visibleCols c),
   inRange 0x3C (c.blinkPeriod != 1), within 0x3D 0 1 (u8 r 0x3D),
   inRange 0x3E (c.bannerRow < visibleRows c && c.bannerRow != c.stampRow), within 0x40 0 4 c.scrollSpeed]

/-- One lamp channel. -/
def channelChecks (r : List Byte) (i : Nat) : List Check :=
  let o := 0x44 + 8 * i
  [within o 0 2 (u8 r o), within (o + 1) 0 1 (u8 r (o + 1)), within (o + 2) 0 3000 (u16 r (o + 2)),
   within (o + 4) 0 1023 (u16 r (o + 4)), within (o + 6) 0 1023 (u16 r (o + 6))]

/-- The lamp unit's common fields: 0x74 to 0x81. -/
def lampChecks (c : Cfg) : List Check :=
  [within 0x74 1000 40000 c.pwmHz, within 0x76 0 12000 c.budget, within 0x78 0 1023 c.stillLevel,
   inRange 0x7A (-256 ≤ c.tDerate && c.tDerate ≤ 255),
   inRange 0x7C (-256 ≤ c.tCut && c.tCut ≤ 255 && c.tDerate < c.tCut),
   within 0x7E 2 40 c.hysteresis, within 0x80 0 1023 c.floor]

/-- The exposure unit: 0x82 to 0xA1. A relation is checked at the later of its fields. -/
def exposureChecks (r : List Byte) (c : Cfg) : List Check :=
  [within 0x82 0 1 (u8 r 0x82), within 0x83 1 16 c.damping, within 0x84 20 200000 c.tMin,
   inRange 0x88 (c.tMin ≤ c.tPref),
   inRange 0x8C (20 ≤ c.tMax && c.tMax ≤ 200000 && c.tMin ≤ c.tMax && c.tPref ≤ c.tMax),
   within 0x90 256 4096 c.gMax, within 0x92 0 1023 c.lMin, within 0x94 0 1023 c.lMax, within 0x96 16 235 c.target,
   within 0x97 0 32 c.tolerance, within 0x98 c.tMin c.tMax c.initT, within 0x9C 256 c.gMax c.initG,
   within 0x9E 0 c.lMax c.initL, within 0xA0 0 127 c.sensorAddr]

/-- Chainage, link and head bus: 0xA2 to 0xAF. -/
def linkChecks (r : List Byte) (c : Cfg) : List Check :=
  [within 0xA2 0 1 (u8 r 0xA2), within 0xA3 0 2 c.baud, within 0xA6 0 1 (u8 r 0xA6), within 0xA8 50 5000 c.silenceMs,
   within 0xAA 0 1 c.busRate, within 0xAB 0 7 c.retryLimit, within 0xAC 1 50 c.stretchMs, within 0xAE 1 500 c.busyMs]

/-- Poll entry `j`: of role TEMPERATURE there is one entry at most, of length 2. -/
def pollChecks (r : List Byte) (j : Nat) : List Check :=
  let o := 0xB0 + 6 * j
  let temperature := u8 r (o + 5) == 1
  let earlier := (List.range j).any fun i => u8 r (0xB0 + 6 * i + 5) == 1
  [within o 0 1 (u8 r o), within (o + 1) 0 127 (u8 r (o + 1)), within (o + 3) 1 4 (u8 r (o + 3)),
   within (o + 4) 1 255 (u8 r (o + 4)),
   inRange (o + 5) (u8 r (o + 5) ≤ 1 && (!temperature || (u8 r (o + 3) == 2 && !earlier)))]

/-- Every check of a START, in increasing order of offset (R5). -/
def configChecks (r : List Byte) : List Check :=
  let c := parseCfg r
  regionChecks c ++ captureChecks r c ++ pictureChecks r c ++ (List.range 6).flatMap (channelChecks r) ++ lampChecks c
    ++ exposureChecks r c ++ linkChecks r c ++ (List.range 8).flatMap (pollChecks r)

/-- The first check that fails. -/
def firstFailure (r : List Byte) : Option Check := (configChecks r).find? fun k => !k.ok

/-! ### Geometry (R7) -/

/-- The list geometry of two configurations is the same. -/
def sameList (a b : Cfg) : Bool :=
  a.listBase == b.listBase && a.slots == b.slots && a.eventBase == b.eventBase && a.eventCount == b.eventCount

/-- The ring geometry of two configurations is the same. -/
def sameRing (a b : Cfg) : Bool :=
  a.ringBase == b.ringBase && a.stores == b.stores && a.stride == b.stride && a.width == b.width
    && a.height == b.height

end Sys2Proof.Machine
end

