-- ==== Sys2Proof/Machine/CaptureUnit.lean ====
section
/-! DEFINITION. The capture frame from its trigger end to its completion or abandonment (manual section 2.4), and the
commands of the capture unit. -/

namespace Sys2Proof.Machine

/-- The last trigger start and the plan's t give the trigger end (R26). -/
def triggerEndMoment (s : State) (p : FramePlan) : Nat :=
  match s.capture.prevTrigger with
  | none => s.now
  | some q => q.1 + p.t

/-- The frame with the values sampled at the trigger end (R26, R33, R125). -/
def sampleFrame (s : State) (f : Frame) : Frame :=
  { f with
    chainage := s.chainage.x, held := s.chainage.isHeld, saturated := s.chainage.saturated, temp := s.lamp.temp
    burnText := if s.cfg.burnIn then stampText s.chainage.x s.chainage.isHeld s.chainage.saturated else [] }

/-- The trigger end (R26): the samples, the end of the exposure window at the lamp unit, READOUT. -/
def triggerEndOp (s : State) : State :=
  match s.capture.frame with
  | none => s
  | some f =>
    let f := sampleFrame s f
    let s := { s with capture := { s.capture with trig := .readout, frame := some f } }
    lampDo (lampTriggerEnd s.part s.cfg s.lamp) s

/-! ### Abandonment (R31, R32) -/

/-- The counters of an abandonment; at the third in a row the unit enters LOS, with its event (R31, R32). -/
def countAbandon (seq : Word) (s : State) : State :=
  let n := min 255 (s.capture.abandons + 1)
  let s := { s with capture := { s.capture with
    deadline := none, abandoned := s.capture.abandoned + 1, abandons := n } }
  if n = 3 ∧ s.capture.los = false then
    emit (Event.sensorLos seq) { s with capture := { s.capture with los := true } }
  else s

/-- The abandonment of the frame in progress (R31). -/
def abandonFrame (f : Frame) (boost : Bool) (s : State) : State :=
  onward (portWrite (storeBase s.cfg f.store) [0] s) fun s =>
  onward (countAbandon f.seq (updateStore f.store (fun e => { e with state := .void }) s)) fun s =>
  onward (planNext s) fun s =>
  onward (if boost then boostLost f.seq s else s) settleHalt

/-- The frame in READOUT, with its plan's boost flag, if there is one. -/
def frameInReadout (s : State) : Option (Frame × Bool) :=
  if s.capture.trig = .readout then
    match s.capture.frame, s.capture.plan with
    | some f, some p => some (f, p.boost)
    | _, _ => none
  else none

/-! ### A line of pixels (R27, R28, R30, R33) -/

/-- The luma bytes of a line that fall in the metering window, summed (R30). -/
def meterLine (cfg : Cfg) (line : Nat) (bytes : List Byte) : Nat :=
  if cfg.winTop ≤ line ∧ line < cfg.winTop + cfg.winHeight then
    ((List.range cfg.winWidth).map fun i => u8 bytes (2 * (cfg.winLeft + i) + 1)).sum
  else 0

/-- The whole pixels of a received line that belong to the picture: at most `width`, a trailing odd byte dropped
(R28). -/
def linePixels (cfg : Cfg) (bytes : List Byte) : Nat := min cfg.width (bytes.length / 2)

/-- The bytes of a line as written to the store (R27, R28, R33). -/
def lineStored (s : State) (f : Frame) (bytes : List Byte) : List Byte :=
  let kept := bytes.take (2 * linePixels s.cfg bytes)
  if s.cfg.burnIn then burnLine s.cfg s.overlay f.burnText f.lines kept else kept

/-- A line of the frame's picture arrives: it is written and metered; a short one abandons the frame. -/
def takeLine (f : Frame) (boost : Bool) (bytes : List Byte) (s : State) : State :=
  onward (portWrite (lineBase s.cfg f.store f.lines) (lineStored s f bytes) s) fun s =>
  if linePixels s.cfg bytes < s.cfg.width then abandonFrame f boost s
  else
    let f' := { f with lines := f.lines + 1, meterSum := f.meterSum + meterLine s.cfg f.lines bytes }
    { s with capture := { s.capture with frame := some f' } }

/-- PIXEL_LINE's effect: only a line of an accepted picture, before line `height`, is taken (R27, R28). -/
def pixelLineOp (bytes : List Byte) (s : State) : State :=
  match frameInReadout s with
  | none => s
  | some (f, boost) => if f.picture ∧ f.lines < s.cfg.height then takeLine f boost bytes s else s

/-! ### Completion (R29, R30) -/

/-- The metering mean (R30). -/
def meterMean (cfg : Cfg) (f : Frame) : Nat := f.meterSum / (cfg.winWidth * cfg.winHeight)

/-- The header fields of a completed frame from byte 8 to byte 37 (manual section 12.6). -/
def headerBody (f : Frame) (p : FramePlan) : List Byte :=
  le32i f.chainage ++ le32 p.t ++ le16 f.gain ++ le16 f.autoLevel ++ (f.levels.map le16).flatten ++ le32 p.tCap
    ++ le16i (f.temp.getD Config.noTemperature)

/-- The header writes of a completion, the state COMPLETE last (R29 step 2, R176): the flags and the metering mean, then
the rest in order of offset (log entry 56). -/
def writeCompleteHeader (f : Frame) (p : FramePlan) (s : State) : State :=
  let a := storeBase s.cfg f.store
  onward (portWrite (a + 2) [headerFlags p.boost s.cfg.burnIn f.held f.saturated, byte (meterMean s.cfg f)] s) fun s =>
  onward (portWrite (a + 8) (headerBody f p) s) fun s =>
  portWrite a [2] s

/-- A completion in LOS ends it, with its event (R29 step 3, R32). -/
def leaveLos (seq : Word) (s : State) : State :=
  if s.capture.los then
    emit (Event.sensorRestored seq) { s with capture := { s.capture with los := false, abandons := 0 } }
  else s

/-- The ring table entry reads COMPLETE, with the still pin for a boost frame whose order is still held (R29 step 3). -/
def markComplete (k : Nat) (boost : Bool) (s : State) : State :=
  let pin := boost && boostHeld s.still
  updateStore k (fun e => { e with state := .complete, stillPin := e.stillPin || pin }) s

/-- The report of a completed frame (R29 step 6). -/
def completionReport (cfg : Cfg) (f : Frame) (p : FramePlan) (los : Bool) : Report :=
  { seq := f.seq, t := p.t, gain := f.gain, level := f.autoLevel, mean := meterMean cfg f, boost := p.boost, los := los }

/-- The completion of the frame in progress (R29), in the order of its six steps. -/
def completeFrame (f : Frame) (p : FramePlan) (s : State) : State :=
  let los := s.capture.los
  let report := completionReport s.cfg f p los
  let s := { s with capture := { s.capture with deadline := none } }
  onward (writeCompleteHeader f p s) fun s =>
  onward (leaveLos f.seq s) fun s =>
  let s := markComplete f.store p.boost s
  let s := { s with capture := { s.capture with completed := s.capture.completed + 1, abandons := 0 } }
  onward (planNext s) fun s =>
  onward (busServe (exposureReport report s)) fun s =>
  onward (if p.boost then boostDone f.store f.seq s else s) settleHalt

/-- FRAME_COMPLETE's effect: the last line of the frame in READOUT has been written (R29). -/
def frameCompleteOp (s : State) : State :=
  match s.capture.frame, s.capture.plan with
  | some f, some p =>
    if s.capture.trig = .readout ∧ f.picture ∧ f.lines = s.cfg.height then completeFrame f p s else s
  | _, _ => s

/-! ### The commands -/

/-- CAPTURE_DUE (R23): the due moment of the frame waited for has come. -/
def execCaptureDue (s : State) : Host.Outcome State Fault Refusal :=
  match s.capture.plan with
  | none => .next s
  | some p => .next (if s.capture.trig = .waiting then captureSelect (advance p.dueAt s) else s)

/-- TRIGGER_END (R26). -/
def execTriggerEnd (s : State) : Host.Outcome State Fault Refusal :=
  match s.capture.plan with
  | none => .next s
  | some p => .next (if s.capture.trig = .exposing then triggerEndOp (advance (triggerEndMoment s p) s) else s)

/-- FRAME_VALID_RISE (R27): the first one in READOUT starts the frame's picture; any other is discarded. -/
def execFrameValidRise (s : State) : Host.Outcome State Fault Refusal :=
  match frameInReadout s with
  | none => .next s
  | some (f, _) => .next { s with capture := { s.capture with frame := some { f with picture := true } } }

/-- PIXEL_LINE (R27, R28). -/
def execPixelLine (moment : Nat) (bytes : List Byte) (s : State) : Host.Outcome State Fault Refusal :=
  .next (pixelLineOp bytes (advance moment s))

/-- FRAME_VALID_FALL (R28): after fewer than `height` lines of the frame's picture the frame is abandoned. -/
def execFrameValidFall (moment : Nat) (s : State) : Host.Outcome State Fault Refusal :=
  let s := advance moment s
  match frameInReadout s with
  | none => .next s
  | some (f, boost) => .next (if f.picture ∧ f.lines < s.cfg.height then abandonFrame f boost s else s)

/-- FRAME_COMPLETE (R29). -/
def execFrameComplete (moment : Nat) (s : State) : Host.Outcome State Fault Refusal :=
  .next (frameCompleteOp (advance moment s))

/-- CAPTURE_DEADLINE_EXPIRY (R31): in READOUT the frame is abandoned, unless its last line has been written: then it
is complete (log entry 10). -/
def execCaptureDeadlineExpiry (s : State) : Host.Outcome State Fault Refusal :=
  match s.capture.deadline, frameInReadout s with
  | some d, some (f, boost) =>
    .next (if f.lines < s.cfg.height then abandonFrame f boost (advance d s) else s)
  | _, _ => .next s

/-- SENSOR_LOS (R32): the abandonment of the frame in READOUT, where it is the third in a row (log entry 3). -/
def execSensorLos (moment : Nat) (s : State) : Host.Outcome State Fault Refusal :=
  let s := advance moment s
  match frameInReadout s with
  | none => .next s
  | some (f, boost) =>
    .next (if s.capture.abandons = 2 ∧ s.capture.los = false ∧ f.lines < s.cfg.height then abandonFrame f boost s
      else s)

end Sys2Proof.Machine
end

