-- ==== Sys2Proof/Machine/Requests.lean ====
section
/-! DEFINITION. The requests of the frame store ring, the still unit, the overlay unit, the head bus unit and the list
engine, carried out at their hand-over (R17). -/

namespace Sys2Proof.Machine

/-! ### FRAME_HOLD and FRAME_RELEASE (R36, R37) -/

/-- The COMPLETE store with a sequence. -/
def completeStore (s : State) (seq : Word) : Option Nat :=
  (storesInUse s).find? fun k => (storeAt s k).state == .complete && (storeAt s k).seq == seq

/-- The held store with a sequence. -/
def heldStore (s : State) (seq : Word) : Option Nat :=
  (storesInUse s).find? fun k => (storeAt s k).hold && (storeAt s k).seq == seq

/-- The sequence a FRAME_HOLD or FRAME_RELEASE carries. -/
def argSequence (args : List Byte) : Word := BitVec.ofNat 32 (u32 args 0)

/-- A store becomes held: its entry, then the header's hold field, then the completion (R36). -/
def holdStore (r : Request) (k : Nat) (s : State) : State :=
  let s := updateStore k (fun e => { e with hold := true }) s
  onward (portWrite (storeBase s.cfg k + 1) [1] s) fun s => complete r.slot rcOk k (heldStores s) s

/-- FRAME_HOLD (R36), by the first case of its table. -/
def frameHoldOp (r : Request) (s : State) : State :=
  match completeStore s (argSequence r.args) with
  | none => complete r.slot rcNotPresent 0 0 s
  | some k =>
    if (storeAt s k).hold then complete r.slot rcOk k (heldStores s) s
    else if s.cfg.stores - 2 ≤ heldStores s then complete r.slot rcHoldLimit 0 0 s
    else holdStore r k s

/-- FRAME_RELEASE (R37): the hold is cleared, the header's hold field written 0, the request completed, and the release
reported to the capture unit. -/
def frameReleaseOp (r : Request) (s : State) : State :=
  match heldStore s (argSequence r.args) with
  | none => complete r.slot rcNotHeld 0 0 s
  | some k =>
    let s := updateStore k (fun e => { e with hold := false }) s
    onward (portWrite (storeBase s.cfg k + 1) [0] s) fun s =>
    onward (complete r.slot rcOk k (heldStores s) s) reportRelease

/-! ### SNAPSHOT (R160) -/

/-- SNAPSHOT: in RUNNING it joins the order queue or completes BUSY; in HALTING it is ended ABORTED (R8). -/
def snapshotOp (r : Request) (s : State) : State :=
  if s.part = .running then
    if orderRoom s then joinOrder (.snapshot r.slot) s else complete r.slot rcBusy 0 0 s
  else complete r.slot rcAborted 0 0 s

/-! ### Overlay edits (R63) -/

/-- An edit joins the end of the pending edit list. -/
def appendEdit (r : Request) (s : State) : State :=
  { s with overlay := { s.overlay with edits := s.overlay.edits ++ [r] } }

/-! ### BUS_TRANSFER, POLL_SET, BUS_RESET (R148, R153, R154) -/

/-- A BUS_TRANSFER is refused (R154). -/
def transferRefused (args : List Byte) : Bool :=
  127 < u8 args 0 || 1 < u8 args 1 || (u8 args 1 == 0 && 16 < u8 args 2) || (u8 args 1 == 1 && 32 < u8 args 2)
    || 32 < u8 args 3

/-- The transfer a BUS_TRANSFER's arguments give. -/
def transferOf (r : Request) : HostTransfer :=
  { slot := r.slot, address := u8 r.args 0, buffered := u8 r.args 1 == 1, writeLen := u8 r.args 2,
    readLen := u8 r.args 3, dest := u32 r.args 4, buffer := u32 r.args 8, inline := slice r.args 12 16 }

/-- BUS_TRANSFER (R154): it joins the host transfer queue, and the unit looks for work; in HALTING it is ended ABORTED
(R8). -/
def busTransferOp (r : Request) (s : State) : State :=
  if transferRefused r.args then badArgument r s
  else if s.part = .halting then complete r.slot rcAborted 0 0 s
  else busServe { s with bus := { s.bus with queue := s.bus.queue ++ [transferOf r] } }

/-- Another entry of the poll table than `j` has role TEMPERATURE. -/
def temperatureElsewhere (polls : List Poll) (j : Nat) : Bool :=
  (List.range polls.length).any fun i => i != j && (polls.getD i {}).entry.role == .temperature

/-- A POLL_SET is refused (R153). -/
def pollSetRefused (args : List Byte) (polls : List Poll) : Bool :=
  7 < u8 args 0 || 127 < u8 args 2 || u8 args 4 == 0 || 4 < u8 args 4 || 1 < u8 args 6
    || (u8 args 6 == 1 && (u8 args 4 != 2 || temperatureElsewhere polls (u8 args 0)))

/-- The poll entry a POLL_SET's arguments give; a period of 0 is set to 1. -/
def pollSetEntry (args : List Byte) : PollEntry :=
  { enable := flagAt args 1, address := u8 args 2, register := args.getD 3 0, length := u8 args 4,
    period := max 1 (u8 args 5), role := if u8 args 6 = 1 then .temperature else .general }

/-- The entry is the TEMPERATURE entry the lamp unit asks about. -/
def PollEntry.isTemperature (e : PollEntry) : Bool := e.enable && e.role == .temperature

/-- A poll of entry `j` in hand is marked as replaced (R152). -/
def markReplaced (j : Nat) (t : Txn) : Txn :=
  match t.owner with
  | .poll i _ => if i = j then { t with owner := .poll i true } else t
  | .gain _ => t
  | .host _ => t

/-- The poll table with entry `j` replaced (R153). -/
def replacePoll (j : Nat) (e : PollEntry) (b : Bus) : Bus :=
  { b with polls := updateAt b.polls j fun _ => { entry := e, countdown := if e.enable then e.period else 0 }
           inHand := b.inHand.map (markReplaced j) }

/-- The lamp unit is told that the TEMPERATURE entry has come or gone (R81, R153). -/
def tellTemperature (before after : Bool) (s : State) : State :=
  if after then { s with lamp := lampEntryCome s.lamp }
  else if before then lampDo (lampEntryGone s.part s.cfg s.lamp) s
  else s

/-- POLL_SET (R153). -/
def pollSetOp (r : Request) (s : State) : State :=
  if pollSetRefused r.args s.bus.polls then badArgument r s
  else
    let j := u8 r.args 0
    let e := pollSetEntry r.args
    let before := (s.bus.polls.getD j {}).entry.isTemperature
    onward (tellTemperature before e.isTemperature { s with bus := replacePoll j e s.bus }) fun s =>
    complete r.slot (if u8 r.args 5 = 0 then rcClamped else rcOk) j 0 s

/-! ### LATCH_CLEAR (R171) -/

/-- LATCH_CLEAR (R171, R50): the mask bits named, and the stall latch with the stall flag. -/
def latchClearOp (r : Request) (s : State) : State :=
  if 16777216 ≤ u32 r.args 4 then badArgument r s
  else
    let s := { s with
      list := { s.list with missed := s.list.missed &&& ~~~BitVec.ofNat 24 (u32 r.args 4) }
      playout := { s.playout with stallLatch := s.playout.stallLatch && !flagAt r.args 0 } }
    complete r.slot rcOk s.list.missed.toNat (if s.playout.stallLatch then 1 else 0) s

/-! ### The commands -/

/-- FRAME_HOLD (R36). -/
def execFrameHold (s : State) : Host.Outcome State Fault Refusal := .next (handOverKind kFrameHold frameHoldOp s)

/-- FRAME_RELEASE (R37). -/
def execFrameRelease (s : State) : Host.Outcome State Fault Refusal :=
  .next (handOverKind kFrameRelease frameReleaseOp s)

/-- SNAPSHOT (R160). -/
def execSnapshot (s : State) : Host.Outcome State Fault Refusal := .next (handOverKind kSnapshot snapshotOp s)

/-- OVERLAY_WRITE (R63): applied at an output frame start by R64 to R67. -/
def execOverlayWrite (s : State) : Host.Outcome State Fault Refusal := .next (handOverKind kOverlayWrite appendEdit s)

/-- OVERLAY_STYLE (R63): applied at an output frame start by R68. -/
def execOverlayStyle (s : State) : Host.Outcome State Fault Refusal := .next (handOverKind kOverlayStyle appendEdit s)

/-- FONT_LOAD (R63): applied at an output frame start by R60. -/
def execFontLoad (s : State) : Host.Outcome State Fault Refusal := .next (handOverKind kFontLoad appendEdit s)

/-- BUS_TRANSFER (R154). -/
def execBusTransfer (s : State) : Host.Outcome State Fault Refusal := .next (handOverKind kBusTransfer busTransferOp s)

/-- POLL_SET (R153). -/
def execPollSet (s : State) : Host.Outcome State Fault Refusal := .next (handOverKind kPollSet pollSetOp s)

/-- BUS_RESET (R148, R149). -/
def execBusReset (acked : Nat) (s : State) : Host.Outcome State Fault Refusal :=
  .next (handOverKind kBusReset (fun r s => busResetOp r.slot acked s) s)

/-- LATCH_CLEAR (R171). -/
def execLatchClear (s : State) : Host.Outcome State Fault Refusal := .next (handOverKind kLatchClear latchClearOp s)

end Sys2Proof.Machine
end

