-- ==== Sys2Proof/Machine/PartControl.lean ====
section
/-! DEFINITION. The part states (manual section 1.3): START and the configuration load, region preparation and the
entry to RUNNING, HALT, the resets, and the writes to the registers. -/

namespace Sys2Proof.Machine

/-- T_out in µs of the cadence in force (manual section 3.1). -/
def outputPeriod (cfg : Cfg) : Nat := 1000000 / cfg.cadence

/-- The output timer is loaded with T_out and starts (R41). -/
def startOutputTimer (s : State) : State :=
  { s with playout := { s.playout with timer := some (s.now + outputPeriod s.cfg) } }

/-! ### START (R5) -/

/-- The list engine, playout, ring table and link at entry to LOADING (R14, R35, R41, R42, R126). -/
def quietBlocks (s : State) : State :=
  { dropPlayPin s with
    list := { s.list with pollTimer := none }
    playout := { s.playout with timer := none, video := .none, shown := none }
    ring := s.ring.map fun e => { e with playPin := false, stillPin := false }
    link := linkInactive s.link }

/-- Entry to LOADING (R5, R91). -/
def enterLoading (origin : StartOrigin) (s : State) : State :=
  lampEnterState { quietBlocks (setPart .loading s) with
    loading := some { origin := origin, preparing := false, listChanged := false, ringChanged := false } }

/-- START taken in OFF or HALTED; ignored elsewhere (R3). -/
def startOp (s : State) : State :=
  match s.part with
  | .off => enterLoading .off s
  | .halted => enterLoading .halted s
  | .loading => s
  | .running => s
  | .halting => s
  | .faulted => s

/-! ### The configuration load (R5, R6) -/

/-- The part state a refused START returns to (R6). -/
def StartOrigin.part : StartOrigin → PartState
  | .off => .off
  | .halted => .halted

/-- The return from LOADING after a refusal (R6, R41, R91, R126). -/
def returnFromLoading (origin : StartOrigin) (s : State) : State :=
  let s := { setPart origin.part s with loading := none }
  let s := match origin with
    | .off => s
    | .halted => restartSilence (startOutputTimer s)
  lampEnterState s

/-- A refused START (R6): the status record at the base just read, the return, FAULT. -/
def refuseStart (origin : StartOrigin) (k : Check) (s : State) : State :=
  onward (writeStatus s.workBase.toNat origin.part { s with refusalCode := k.code, refusalOffset := k.offset }) fun s =>
  onward (returnFromLoading origin s) (setAttention attFault)

/-- Every check has passed: the blocks take the values (R5, R75, R93, R107, R126, R140, R58). -/
def takeConfig (l : Loading) (cfg : Cfg) (s : State) : State :=
  { s with
    cfg := cfg, cfgTaken := true, areaBase := s.workBase.toNat, refusalCode := refNone, refusalOffset := 0
    loading := some { l with preparing := true
                             listChanged := l.origin == .off || !sameList s.cfg cfg
                             ringChanged := l.origin == .off || !sameRing s.cfg cfg }
    overlay := overlayTakeConfig s.cfg cfg s.overlay
    lamp := lampTakeConfig cfg s.lamp
    exposure := exposureTakeConfig cfg s.exposure
    chainage := { s.chainage with linkLossHold := cfg.linkLossHold }
    link := linkTakeConfig s.link
    bus := busTakeConfig cfg s.bus }

/-- The configuration record is read and checked (R5). -/
def configurationLoadOp (l : Loading) (s : State) : State :=
  match portReadSome configAssigns s.workBase.toNat 256 s with
  | none => enterFaulted s
  | some r => match firstFailure r with
    | some k => refuseStart l.origin k s
    | none => takeConfig l (parseCfg r) s

/-! ### Region preparation (R7) -/

/-- Lap 3 into the lap field of event entries. -/
def writeLaps : List Nat → State → State
  | [], s => s
  | i :: is, s => onward (portWrite (s.cfg.eventBase + 48 * i) [3] s) (writeLaps is)

/-- The lists of a changed geometry (R7). -/
def prepareLists (s : State) : State :=
  onward (writeLaps (List.range s.cfg.eventCount) s) fun s =>
  onward (portWrite (s.areaBase + 0x280) (le32 0)
    { s with list := { s.list with reqIndex := 0, reqLap := 0, evIndex := 0, evLap := 0 } }) fun s =>
  { s with list := { s.list with listState := .active } }

/-- A held store keeps its state COMPLETE and its hold under an unchanged ring geometry (R7). -/
def RingEntry.kept (e : RingEntry) : Bool := e.hold && e.state == .complete

/-- The first bytes of store headers: the state VOID, and the hold clear where holds are dropped. -/
def writeVoids (bytes : List Byte) : List Nat → State → State
  | [], s => s
  | k :: ks, s => onward (portWrite (storeBase s.cfg k) bytes s) (writeVoids bytes ks)

/-- The ring at region preparation (R7, R35): the entries set, the header states written; where every hold is dropped
the header's hold is written clear with the state, for the header mirrors both (section 2.6; log entry 18). The rules
set no order between entries and headers: the model sets every entry before the first header write (log entry 48). -/
def prepareRing (changed : Bool) (s : State) : State :=
  let keep := fun e : RingEntry => !changed && e.kept
  writeVoids (if changed then [0, 0] else [0]) ((storesInUse s).filter fun k => !keep (storeAt s k))
    { s with ring := s.ring.map fun e => if keep e then e else { e with state := .void, hold := false } }

/-- The playout unit at entry to RUNNING (R43). -/
def playoutEnterRunning (seq : Word) (p : Playout) : Playout :=
  { p with shown := none, consec := 0, stallOpen := false, lastShown := seq }

/-- The list poll timer's start (R14). -/
def startPollTimer (s : State) : State :=
  { s with list := { s.list with pollTimer :=
    if s.cfg.pollMs = 0 then none else some (s.now + s.cfg.pollMs * 1000) } }

/-- The level of the plan just fixed. -/
def planLevel (s : State) : Nat :=
  match s.capture.plan with
  | none => 0
  | some p => p.level

/-- Entry to RUNNING (R7, R14, R21, R41, R43, R87, R101, R122, R126), in the order of log entry 9. -/
def enterRunning (s : State) : State :=
  let s := { setPart .running s with loading := none }
  let s := startPollTimer (startOutputTimer s)
  let s := { s with
    link := { s.link with silence := some (s.now + s.cfg.silenceMs * 1000) }
    playout := playoutEnterRunning s.capture.seq s.playout
    capture := { s.capture with selPtr := none } }
  let s := fixPlan s
  onward (lampDo (lampEnterRunning s.cfg (planLevel s) s.lamp) s) fun s =>
  onward (busServe (handGainAtEntry s)) awaitDue

/-- Region preparation (R7). R7 gives the writes no order: the lists' laps come first, then the read index, then the
store headers (log entry 48). -/
def regionPreparationOp (l : Loading) (s : State) : State :=
  onward (if l.listChanged then prepareLists s else s) fun s =>
  onward (prepareRing l.ringChanged s) fun s =>
  onward (writeStatus s.areaBase s.part s) enterRunning

/-! ### HALT (R8) -/

/-- The capture unit's part in a HALT (R38): a planned frame is not triggered. Of the two orders that R165 allows, the
model has the still unit take the report of this after its orders have ended: it finds no order there, so none is made
(log entry 61). -/
def haltCapture (s : State) : State :=
  if s.capture.trig = .waiting ∨ s.capture.trig = .deferred then
    { s with capture := { s.capture with trig := .idle, plan := none, deferralOpen := false } }
  else s

/-- The list engine's part in a HALT: the poll timer stops, and a scan with no slot in hand ends. -/
def haltList (s : State) : State :=
  { s with list := { s.list with pollTimer := none, scanning := s.list.scanning && s.list.handed.isSome } }

/-- The orders in the still queue end (R165). -/
def haltStill (s : State) : State := abortOrders s.still.orders s

/-- HALT taken in RUNNING (R8). The lamp update, the queued transfers, the still orders and the host messages follow in
this order (log entry 38). -/
def haltOp (s : State) : State :=
  let s := withdrawGain (haltCapture (haltList (setPart .halting s)))
  onward (lampEnterState s) fun s =>
  onward (haltBus s) fun s =>
  onward (haltStill s) fun s =>
  onward (haltLink s) settleHalt

/-! ### The resets (R11) -/

/-- The chainage unit at soft reset (R107, R116; log entry 16). -/
def Chainage.softReset (c : Chainage) : Chainage :=
  { c with run := .stopped, linkLossHold := false
           reasons := { c.reasons with notRunning := true, host := false, surface := false } }

/-- The overlay unit at soft reset (R58, R11). -/
def Overlay.softReset (o : Overlay) : Overlay :=
  { cells := o.cells, palette := o.palette, glyphs := o.glyphs, key := o.key, care := o.care,
    layerEnable := o.layerEnable }

/-- Power-on reset (R11): every block at its power-on value; the board's memory is not the part's (log entry 23). -/
def powerOnResetOp (s : State) : State :=
  { State.reset with pending := s.pending, now := s.now, mem := s.mem, errors := s.errors }

/-- SOFT_RESET (R11): the reset values, but for what the chainage unit and the overlay unit keep. -/
def softResetOp (s : State) : State :=
  { powerOnResetOp s with chainage := s.chainage.softReset, overlay := s.overlay.softReset }

/-! ### Register writes (R2 to R4) -/

/-- A write to WORK_BASE (R2): accepted in OFF and HALTED, the low twelve bits discarded. -/
def writeWorkBase (value : Word) (s : State) : State :=
  if s.part = .off ∨ s.part = .halted then { s with workBase := value &&& 0xFFFFF000 } else s

/-- A write to ATTENTION (R4): each bit written as one is cleared. -/
def clearAttention (value : Word) (s : State) : State :=
  { s with attention := s.attention &&& ~~~value.setWidth 4 }

/-- A write to ATTENTION_MASK (R4). -/
def writeMask (value : Word) (s : State) : State := { s with attentionMask := value.setWidth 4 }

/-- LIST_RESYNC taken in RUNNING and HALTED (R12). -/
def listResyncOp (s : State) : State :=
  if s.part = .running ∨ s.part = .halted then
    if s.list.handed.isSome then { s with list := { s.list with resyncWaiting := true } } else resyncNow s
  else s

/-- A write to CONTROL (R3): bits 3–0 name commands; exactly one gives it, none or several are ignored. -/
def writeControl (value : Word) (s : State) : State :=
  match (value.setWidth 4).toNat with
  | 1 => startOp s
  | 2 => if s.part = .running then haltOp s else s
  | 4 => softResetOp s
  | 8 => listResyncOp s
  | _ => s

/-- A host write to the register at an offset (R2; log entry 24). -/
def writeRegister (offset : Nat) (value : Word) (s : State) : State :=
  match offset with
  | 0x04 => writeWorkBase value s
  | 0x08 => writeControl value s
  | 0x0C => clearAttention value s
  | 0x10 => writeMask value s
  | _ => s

/-! ### The commands -/

/-- START (R5). -/
def execStart (s : State) : Host.Outcome State Fault Refusal := .next (startOp s)

/-- HALT (R8): taken in RUNNING, ignored elsewhere (R3). -/
def execHalt (s : State) : Host.Outcome State Fault Refusal := .next (if s.part = .running then haltOp s else s)

/-- SOFT_RESET (R11). -/
def execSoftReset (s : State) : Host.Outcome State Fault Refusal := .next (softResetOp s)

/-- LIST_RESYNC (R12). -/
def execListResync (s : State) : Host.Outcome State Fault Refusal := .next (listResyncOp s)

/-- WORK_BASE_WRITE (R2). -/
def execWorkBaseWrite (value : Word) (s : State) : Host.Outcome State Fault Refusal := .next (writeWorkBase value s)

/-- ATTENTION_WRITE (R4). -/
def execAttentionWrite (value : Word) (s : State) : Host.Outcome State Fault Refusal := .next (clearAttention value s)

/-- ATTENTION_MASK_WRITE (R4). -/
def execAttentionMaskWrite (value : Word) (s : State) : Host.Outcome State Fault Refusal := .next (writeMask value s)

/-- REGISTER_WRITE (R2, R3). -/
def execRegisterWrite (offset : Nat) (value : Word) (s : State) : Host.Outcome State Fault Refusal :=
  .next (writeRegister offset value s)

/-- Power-on reset (R11). -/
def execPowerOnReset (s : State) : Host.Outcome State Fault Refusal := .next (powerOnResetOp s)

/-- CONFIGURATION_LOAD (R5): the read of the record ends. -/
def execConfigurationLoad (moment : Nat) (s : State) : Host.Outcome State Fault Refusal :=
  match s.loading with
  | none => .next s
  | some l => .next (if l.preparing then s else configurationLoadOp l (advance moment s))

/-- REGION_PREPARATION (R7): the preparation writes end. -/
def execRegionPreparation (moment : Nat) (s : State) : Host.Outcome State Fault Refusal :=
  match s.loading with
  | none => .next s
  | some l => .next (if l.preparing then regionPreparationOp l (advance moment s) else s)

/-- MEMORY_ERROR (R10): an access of work in progress ends with an error response. In OFF and FAULTED the part makes
none. -/
def execMemoryError (moment : Nat) (s : State) : Host.Outcome State Fault Refusal :=
  .next (if s.part = .off ∨ s.part = .faulted then s else enterFaulted (advance moment s))

end Sys2Proof.Machine
end

