-- ==== Sys2Proof/Machine/PlayoutUnit.lean ====
section
/-! DEFINITION. The playout unit (manual chapter 3): selection, underruns, the stall rule. -/

namespace Sys2Proof.Machine

/-- The distance of a sequence from the last shown one (R44). -/
def distance (s : State) (seq : Word) : Nat := (seq - s.playout.lastShown).toNat

/-- A sequence fresher than the last shown one (R44). -/
def fresher (s : State) (seq : Word) : Bool := 1 ≤ distance s seq && distance s seq ≤ 2147483647

/-- The candidates of a selection (R44), without stores whose pin was refused (R46). -/
def candidates (s : State) (refused : List Nat) : List Nat :=
  (storesInUse s).filter fun k =>
    (storeAt s k).state == .complete && fresher s (storeAt s k).seq && !refused.contains k

/-- The candidate of greatest distance (R44). -/
def bestCandidate (s : State) : List Nat → Option Nat
  | [] => none
  | k :: ks => match bestCandidate s ks with
    | none => some k
    | some j => if distance s (storeAt s k).seq < distance s (storeAt s j).seq then some j else some k

/-- The ring table makes a playout pin only on a COMPLETE store, and as the same action releases the previous one
(R34). -/
def pinStore (k : Nat) (s : State) : Option State :=
  if (storeAt s k).state = .complete then
    some (updateStore k (fun e => { e with playPin := true })
      { s with ring := s.ring.map fun e => { e with playPin := false } })
  else none

/-- Playout releases its pin, if it holds one, turns to the fill picture, and the release is reported (R34, R47). -/
def turnToFill (s : State) : State :=
  match s.playout.shown with
  | none => { s with playout := { s.playout with video := .fill true } }
  | some _ =>
    let s := dropPlayPin s
    reportRelease { s with playout := { s.playout with video := .fill true } }

/-- A candidate is shown (R45), its pin made in `pinned`: the counts, the close of an episode that was open, then
its CAPTURE_RESUMED (log entry 53); a DEFERRED capture unit acts on the release of the previous pin after them (log
entry 49). The not-shown count wraps (log entry 52), and no refused store is told apart in it (log entry 57). -/
def showStore (k : Nat) (pinned s : State) : State :=
  let p := s.playout
  let seq := (storeAt s k).seq
  let s' := { pinned with playout :=
    { p with shown := some k, notShown := p.notShown + BitVec.ofNat 32 (distance s seq - 1), lastShown := seq,
             stallOpen := false, consec := 0, video := .store k } }
  let s' := if p.stallOpen then emit (Event.captureResumed seq p.consec) s' else s'
  if p.shown.isSome then onward s' reportRelease else s'

/-- The stall episode opens (R49). The picture that begins is fill, so a memory error at the event leaves the period
the fill picture without overlay (R55). -/
def openStall (s : State) : State :=
  let ev := Event.captureStall s.playout.lastShown s.cfg.stallLimit s.capture.los
  onward (emit ev { s with playout := { s.playout with stallOpen := true, video := .fill true } }) fun s =>
  turnToFill { s with playout := { s.playout with stallLatch := true } }

/-- An underrun (R47 to R49). -/
def underrun (s : State) : State :=
  let n := min 255 (s.playout.consec + 1)
  let s := { s with playout := { s.playout with underruns := s.playout.underruns + 1, consec := n } }
  if s.playout.stallOpen then turnToFill s
  else if n = s.cfg.stallLimit then openStall s
  else if s.capture.los then turnToFill s
  else if s.cfg.underrunFill then turnToFill s
  else match s.playout.shown with
    | none => { s with playout := { s.playout with video := .fill true } }
    | some k => { s with playout := { s.playout with video := .store k } }

/-- Selection (R44 to R47): the best candidate is asked for; a refused one is left out and selection repeats. -/
def selectShown : Nat → List Nat → State → State
  | 0, _, s => underrun s
  | fuel + 1, refused, s =>
    match bestCandidate s (candidates s refused) with
    | none => underrun s
    | some k => match pinStore k s with
      | some s' => showStore k s' s
      | none => selectShown fuel (k :: refused) s

/-- The playout unit's work at an output frame start (R42, R45, R47, R54, R55). -/
def playoutFrame (s : State) : State :=
  match s.part with
  | .running => selectShown 16 [] s
  | .halting => selectShown 16 [] s
  | .halted => { s with playout := { s.playout with video := .fill true } }
  | .faulted => { s with playout := { s.playout with video := .fill false } }
  | .off => s
  | .loading => s

/-- The next underrun would bring the consecutive underrun count to the stall limit (R49). -/
def stallNext (s : State) : Bool :=
  s.part.lit && !s.playout.stallOpen && min 255 (s.playout.consec + 1) == s.cfg.stallLimit
    && (bestCandidate s (candidates s [])).isNone

/-! ### The command -/

/-- CAPTURE_STALL (R49): the underrun that brings the consecutive underrun count to the stall limit (log entry 3). -/
def execCaptureStall (s : State) : Host.Outcome State Fault Refusal :=
  .next (if stallNext s then underrun s else s)

end Sys2Proof.Machine
end

