-- ==== Sys2Proof/Machine/FrameStart.lean ====
section
/-! DEFINITION. The output frame start (R41): the output timer, the output frame counter, the work of every block in the
order given with the command, the status record, and the scan event. -/

namespace Sys2Proof.Machine

/-- One block's work at an output frame start. -/
def blockFrame (b : FrameBlock) (s : State) : State :=
  match b with
  | .playout => playoutFrame s
  | .lamp => lampDo (lampAge s.part s.cfg s.lamp) s
  | .headBus => busFrame s
  | .overlay => overlayFrame s
  | .link => linkFrame s

/-- Every block, in the order the manual's chapters give them. -/
def allBlocks : List FrameBlock := [.playout, .lamp, .headBus, .overlay, .link]

/-- The order in which the blocks take an output frame start: as given, each once, missing ones after (log entry 8). -/
def blockOrder (order : List FrameBlock) : List FrameBlock := (order ++ allBlocks).eraseDups

/-- The blocks' work in an order. -/
def runBlocks : List FrameBlock → State → State
  | [], s => s
  | b :: bs, s => runBlocks bs (blockFrame b s)

/-- The timer reloads and the output frame counter advances (R41). -/
def countFrame (expiry : Nat) (s : State) : State :=
  let s := advance expiry s
  { s with playout := { s.playout with timer := some (expiry + outputPeriod s.cfg), frames := s.playout.frames + 1 } }

/-- The whole of an output frame start (R41, R172, R14). -/
def frameStart (expiry : Nat) (order : List FrameBlock) (s : State) : State :=
  let s0 := countFrame expiry s
  scanEvent (statusFrame s0 (runBlocks (blockOrder order) s0))

/-- OUTPUT_FRAME_START (R41). -/
def execOutputFrameStart (order : List FrameBlock) (s : State) : Host.Outcome State Fault Refusal :=
  match s.playout.timer with
  | none => .next s
  | some e => .next (frameStart e order s)

end Sys2Proof.Machine
end

