-- ==== Sys2Proof/Machine/LampUnit.lean ====
section
/-! DEFINITION. LAMP_SET (R76) and the stale conditions of the temperature (R81) as commands of the lamp unit. -/

namespace Sys2Proof.Machine

/-- A LAMP_SET is refused: no such channel, nothing present, or a present mode or control that names none (R76). -/
def lampSetRefused (args : List Byte) : Bool :=
  5 < u8 args 0 || u8 args 1 % 8 == 0 || (bitAt args 1 0 && 2 < u8 args 2) || (bitAt args 1 1 && 1 < u8 args 3)

/-- The mode and control a code names (manual section 12.3). -/
def modeOfCode (n : Nat) : LampMode := if n = 1 then .steady else if n = 2 then .strobe else .off
def controlOfCode (n : Nat) : LampControl := if n = 0 then .auto else .manual

/-- A channel record with the present changes written into it (R76). -/
def Channel.change (args : List Byte) (c : Channel) : Channel :=
  { c with mode := if bitAt args 1 0 then modeOfCode (u8 args 2) else c.mode
           control := if bitAt args 1 1 then controlOfCode (u8 args 3) else c.control
           manual := if bitAt args 1 2 then min 1023 (u16 args 4) else c.manual }

/-- The applied level of a channel. -/
def appliedLevel (l : Lamp) (i : Nat) : Nat := (l.channels.getD i {}).applied

/-- LAMP_SET (R76). -/
def lampSetOp (r : Request) (s : State) : State :=
  if lampSetRefused r.args then badArgument r s
  else
    let i := u8 r.args 0
    let l := { s.lamp with channels := updateAt s.lamp.channels i (Channel.change r.args) }
    onward (lampDo (lampUpdate s.part s.cfg.stillLevel l) s) fun s =>
    complete r.slot (if bitAt r.args 1 2 = true ∧ 1023 < u16 r.args 4 then rcClamped else rcOk)
      (appliedLevel s.lamp i) s.lamp.total s

/-- The lamp unit's work on a stale condition of a cause, where it is about to arise (R81; log entry 3): an absent
entry with the flag clear; a fourth failure in a row; a temperature age of 100 with the output timer running. -/
def staleArises (cause : StaleCause) (s : State) : Bool :=
  !(s.part == .off || s.part == .loading) && match cause with
    | .noEntry => !s.lamp.tempPresent && !s.lamp.stale
    | .failures => s.lamp.tempFails == 3
    | .age => s.lamp.tempAge == 100 && s.playout.timer.isSome

/-- The lamp unit after the stale condition. -/
def staleStep (cause : StaleCause) (s : State) : Lamp × List Event :=
  match cause with
  | .noEntry => lampEntryGone s.part s.cfg s.lamp
  | .failures => lampPollFailed s.part s.cfg s.lamp
  | .age => lampAge s.part s.cfg s.lamp

/-! ### The commands -/

/-- LAMP_SET (R76). -/
def execLampSet (s : State) : Host.Outcome State Fault Refusal := .next (handOverKind kLampSet lampSetOp s)

/-- TEMP_STALE (R81; log entry 3). -/
def execTempStale (cause : StaleCause) (s : State) : Host.Outcome State Fault Refusal :=
  .next (if staleArises cause s then lampDo (staleStep cause s) s else s)

end Sys2Proof.Machine
end

