-- ==== Sys2Proof/Machine/Dispatch.lean ====
section
/-! DEFINITION. The dispatch of the commands: one arm for each constructor of Instr. -/

namespace Sys2Proof.Machine

def exec (i : Instr) (s : State) : Host.Outcome State Fault Refusal :=
  match i with
  | .start => Sys2Proof.Machine.execStart s
  | .halt => Sys2Proof.Machine.execHalt s
  | .softReset => Sys2Proof.Machine.execSoftReset s
  | .listResync => Sys2Proof.Machine.execListResync s
  | .workBaseWrite value => Sys2Proof.Machine.execWorkBaseWrite value s
  | .attentionWrite value => Sys2Proof.Machine.execAttentionWrite value s
  | .attentionMaskWrite value => Sys2Proof.Machine.execAttentionMaskWrite value s
  | .registerWrite offset value => Sys2Proof.Machine.execRegisterWrite offset value s
  | .powerOnReset => Sys2Proof.Machine.execPowerOnReset s
  | .configurationLoad moment => Sys2Proof.Machine.execConfigurationLoad moment s
  | .regionPreparation moment => Sys2Proof.Machine.execRegionPreparation moment s
  | .memoryError moment => Sys2Proof.Machine.execMemoryError moment s
  | .outputFrameStart order => Sys2Proof.Machine.execOutputFrameStart order s
  | .listPollTimerExpiry => Sys2Proof.Machine.execListPollTimerExpiry s
  | .scanSlot moment => Sys2Proof.Machine.execScanSlot moment s
  | .badKind => Sys2Proof.Machine.execBadKind s
  | .lampSet => Sys2Proof.Machine.execLampSet s
  | .exposureSet => Sys2Proof.Machine.execExposureSet s
  | .chainageRun => Sys2Proof.Machine.execChainageRun s
  | .chainageCalibrate => Sys2Proof.Machine.execChainageCalibrate s
  | .markSet => Sys2Proof.Machine.execMarkSet s
  | .driveHold => Sys2Proof.Machine.execDriveHold s
  | .frameHold => Sys2Proof.Machine.execFrameHold s
  | .frameRelease => Sys2Proof.Machine.execFrameRelease s
  | .snapshot => Sys2Proof.Machine.execSnapshot s
  | .overlayWrite => Sys2Proof.Machine.execOverlayWrite s
  | .overlayStyle => Sys2Proof.Machine.execOverlayStyle s
  | .fontLoad => Sys2Proof.Machine.execFontLoad s
  | .busTransfer => Sys2Proof.Machine.execBusTransfer s
  | .pollSet => Sys2Proof.Machine.execPollSet s
  | .busReset acked => Sys2Proof.Machine.execBusReset acked s
  | .uplinkSend => Sys2Proof.Machine.execUplinkSend s
  | .latchClear => Sys2Proof.Machine.execLatchClear s
  | .captureStall => Sys2Proof.Machine.execCaptureStall s
  | .captureDue => Sys2Proof.Machine.execCaptureDue s
  | .triggerEnd => Sys2Proof.Machine.execTriggerEnd s
  | .frameValidRise => Sys2Proof.Machine.execFrameValidRise s
  | .pixelLine moment bytes => Sys2Proof.Machine.execPixelLine moment bytes s
  | .frameValidFall moment => Sys2Proof.Machine.execFrameValidFall moment s
  | .frameComplete moment => Sys2Proof.Machine.execFrameComplete moment s
  | .captureDeadlineExpiry => Sys2Proof.Machine.execCaptureDeadlineExpiry s
  | .sensorLos moment => Sys2Proof.Machine.execSensorLos moment s
  | .tempStale cause => Sys2Proof.Machine.execTempStale cause s
  | .gainWriteFailed moment outcome => Sys2Proof.Machine.execGainWriteFailed moment outcome s
  | .reel moment bytes => Sys2Proof.Machine.execReel moment bytes s
  | .chainageResync moment bytes => Sys2Proof.Machine.execChainageResync moment bytes s
  | .powerGrant moment bytes => Sys2Proof.Machine.execPowerGrant moment bytes s
  | .operatorText moment bytes => Sys2Proof.Machine.execOperatorText moment bytes s
  | .keepalive moment bytes => Sys2Proof.Machine.execKeepalive moment bytes s
  | .surfaceMessage moment bytes => Sys2Proof.Machine.execSurfaceMessage moment bytes s
  | .haltDrive moment bytes => Sys2Proof.Machine.execHaltDrive moment bytes s
  | .releaseDrive moment bytes => Sys2Proof.Machine.execReleaseDrive moment bytes s
  | .messageDropped bytes framingError => Sys2Proof.Machine.execMessageDropped bytes framingError s
  | .messageDiscarded bytes => Sys2Proof.Machine.execMessageDiscarded bytes s
  | .rxGapTimeout => Sys2Proof.Machine.execRxGapTimeout s
  | .linkLost => Sys2Proof.Machine.execLinkLost s
  | .headStatus => Sys2Proof.Machine.execHeadStatus s
  | .uplinkTransmitStart => Sys2Proof.Machine.execUplinkTransmitStart s
  | .uplinkSendEnd => Sys2Proof.Machine.execUplinkSendEnd s
  | .busForeignStart => Sys2Proof.Machine.execBusForeignStart s
  | .busForeignStop => Sys2Proof.Machine.execBusForeignStop s
  | .busBusyTimeout stop => Sys2Proof.Machine.execBusBusyTimeout s stop
  | .arbitrationLost moment acked => Sys2Proof.Machine.execArbitrationLost moment acked s
  | .busStuck moment acked => Sys2Proof.Machine.execBusStuck moment acked s
  | .busTransactionEnd moment outcome acked read => Sys2Proof.Machine.execBusTransactionEnd moment outcome acked read s
  | .pollFailing moment outcome => Sys2Proof.Machine.execPollFailing moment outcome s
  | .pollDue moment entry => Sys2Proof.Machine.execPollDue moment entry s
  | .recoveryEnd moment reads clkStuck dat => Sys2Proof.Machine.execRecoveryEnd moment reads clkStuck dat s
  | .stillCopyEnd moment => Sys2Proof.Machine.execStillCopyEnd moment s
  | .startByte => Sys2Proof.Machine.execStartByte s

end Sys2Proof.Machine
end

