-- ==== Sys2Proof/Safety.lean ====
section
/-! DEFINITION. The terms the statements use: the frame of memory, the answer to a request, where the regions lie, and
the invariants that every step keeps. -/

namespace Sys2Proof.Safety

open Sys2Proof.Machine

/-! ### Memory -/

/-- Bytes stored in order from an address on, where the board answers every access without an error. -/
def storeBytes : List Host.Cell → Nat → List Byte → List Host.Cell
  | m, _, [] => m
  | m, a, b :: bs => storeBytes (Memory.write m a b) (a + 1) bs

/-- An address lies in a range (base, length). -/
def InRange (r : Nat × Nat) (a : Nat) : Prop := r.1 ≤ a ∧ a < r.1 + r.2

/-- An access to this address ends with an error response. -/
def Fails (s : State) (a : Nat) : Prop := ∃ r ∈ s.errors, InRange r a

/-- Every byte outside the ranges reads as before. -/
def SameOutside (ranges : List (Nat × Nat)) (s t : State) : Prop :=
  ∀ a, (∀ r ∈ ranges, ¬ InRange r a) → Memory.read t.mem a = Memory.read s.mem a

/-- The 16 bytes of a slot that a completion can write in. -/
def slotHead (slot : Nat) : Nat × Nat := (slot, 16)

/-- The event list. -/
def eventList (s : State) : Nat × Nat := (s.cfg.eventBase, 48 * s.cfg.eventCount)

/-- The header of a frame store. -/
def storeHeader (s : State) (k : Nat) : Nat × Nat := (storeBase s.cfg k, 64)

/-- The status record of a work area. -/
def statusArea (base : Nat) : Nat × Nat := (base + 0x100, 256)

/-! ### Where an access ends without an error -/

/-- Board memory is canonical, no address of it answers with an error, and the regions in use lie inside the 32-bit
space. -/
def RegionsOk (s : State) : Prop :=
  Memory.wf s.mem = true ∧ s.errors = [] ∧ s.areaBase + 0x284 ≤ 2 ^ 32 ∧ s.workBase.toNat + 0x284 ≤ 2 ^ 32
    ∧ s.cfg.listBase + 64 * s.cfg.slots ≤ 2 ^ 32
    ∧ s.cfg.eventBase + 48 * s.cfg.eventCount ≤ 2 ^ 32 ∧ s.list.evIndex < s.cfg.eventCount
    ∧ s.cfg.ringBase + s.cfg.stores * s.cfg.stride ≤ 2 ^ 32 ∧ 64 + s.cfg.width * s.cfg.height * 2 ≤ s.cfg.stride

/-! ### The configuration record -/

/-- A row of R5's table: the field at an offset is as the table asks, or the START is refused with the code. -/
def row (offset code : Nat) (ok : Prop) [Decidable ok] : Check := ⟨offset, code, ok⟩

/-- A byte within its range, or OUT_OF_RANGE. -/
def byteIn (r : List Byte) (o lo hi : Nat) : Check := row o 1 (lo ≤ u8 r o ∧ u8 r o ≤ hi)
/-- A field of two bytes within its range, or OUT_OF_RANGE. -/
def halfIn (r : List Byte) (o lo hi : Nat) : Check := row o 1 (lo ≤ u16 r o ∧ u16 r o ≤ hi)
/-- A field of four bytes within its range, or OUT_OF_RANGE. -/
def wordIn (r : List Byte) (o lo hi : Nat) : Check := row o 1 (lo ≤ u32 r o ∧ u32 r o ≤ hi)

/-- The checks of a START on the bytes of a record, in increasing order of offset (R5, section 12.2). A relation of two
fields stands at the later one (log entry 22). -/
def startTable (r : List Byte) : List Check :=
  let height := u16 r 0x14
  let width := u16 r 0x12
  let cols := min 64 (width / (16 * u8 r 0x35))
  let rows := min 48 (height / (24 * u8 r 0x35))
  let channel := fun i : Nat => let o := 0x44 + 8 * i
    [byteIn r o 0 2, byteIn r (o + 1) 0 1, halfIn r (o + 2) 0 3000, halfIn r (o + 4) 0 1023, halfIn r (o + 6) 0 1023]
  let poll := fun j : Nat => let o := 0xB0 + 6 * j
    [byteIn r o 0 1, byteIn r (o + 1) 0 127, byteIn r (o + 3) 1 4, byteIn r (o + 4) 1 255,
     row (o + 5) 1 (u8 r (o + 5) = 0
       ∨ u8 r (o + 5) = 1 ∧ u8 r (o + 3) = 2 ∧ ∀ i < j, u8 r (0xB0 + 6 * i + 5) ≠ 1)]
  [row 0x00 5 (u16 r 0 ∈ [16, 32, 64, 128, 256]), row 0x02 5 (u16 r 2 ∈ [32, 64, 128, 256, 512, 1024]),
   row 0x04 4 (u32 r 4 % 64 = 0), row 0x08 4 (u32 r 8 % 16 = 0), row 0x0C 4 (u32 r 0xC % 64 = 0),
   row 0x10 2 (3 ≤ u8 r 0x10), row 0x10 1 (u8 r 0x10 ≤ 16),
   row 0x12 1 (320 ≤ width ∧ width ≤ 1920 ∧ width % 16 = 0), row 0x14 1 (240 ≤ height ∧ height ≤ 1080 ∧ height % 8 = 0),
   row 0x18 4 (u32 r 0x18 % 64 = 0), row 0x18 3 (64 + width * height * 2 ≤ u32 r 0x18),
   wordIn r 0x1C 5000 200000, wordIn r 0x20 1000 100000, byteIn r 0x24 1 50, byteIn r 0x25 0 1,
   row 0x26 1 (u16 r 0x26 % 16 = 0), row 0x28 1 (u16 r 0x28 % 8 = 0),
   row 0x2A 1 (16 ≤ u16 r 0x2A ∧ u16 r 0x2A % 16 = 0 ∧ u16 r 0x26 + u16 r 0x2A ≤ width),
   row 0x2C 1 (8 ≤ u16 r 0x2C ∧ u16 r 0x2C % 8 = 0 ∧ u16 r 0x28 + u16 r 0x2C ≤ height),
   row 0x2E 1 (u8 r 0x2E = 25 ∨ u8 r 0x2E = 30), byteIn r 0x2F 0 1, byteIn r 0x30 1 255, byteIn r 0x34 0 100,
   byteIn r 0x35 1 2, byteIn r 0x36 0 1, row 0x37 1 (u8 r 0x37 < rows ∧ u8 r 0x38 + 10 ≤ cols),
   row 0x3C 1 (u8 r 0x3C ≠ 1),
   byteIn r 0x3D 0 1, row 0x3E 1 (u8 r 0x3E < rows ∧ u8 r 0x3E ≠ u8 r 0x37), byteIn r 0x40 0 4]
    ++ (List.range 6).flatMap channel
    ++ [halfIn r 0x74 1000 40000, halfIn r 0x76 0 12000, halfIn r 0x78 0 1023,
        row 0x7A 1 (-256 ≤ s16 r 0x7A ∧ s16 r 0x7A ≤ 255),
        row 0x7C 1 (-256 ≤ s16 r 0x7C ∧ s16 r 0x7C ≤ 255 ∧ s16 r 0x7A < s16 r 0x7C),
        byteIn r 0x7E 2 40, halfIn r 0x80 0 1023, byteIn r 0x82 0 1, byteIn r 0x83 1 16, wordIn r 0x84 20 200000,
        row 0x88 1 (u32 r 0x84 ≤ u32 r 0x88),
        row 0x8C 1 (20 ≤ u32 r 0x8C ∧ u32 r 0x8C ≤ 200000 ∧ u32 r 0x84 ≤ u32 r 0x8C ∧ u32 r 0x88 ≤ u32 r 0x8C),
        halfIn r 0x90 256 4096, halfIn r 0x92 0 1023, halfIn r 0x94 0 1023, byteIn r 0x96 16 235, byteIn r 0x97 0 32,
        wordIn r 0x98 (u32 r 0x84) (u32 r 0x8C), halfIn r 0x9C 256 (u16 r 0x90), halfIn r 0x9E 0 (u16 r 0x94),
        byteIn r 0xA0 0 127, byteIn r 0xA2 0 1, byteIn r 0xA3 0 2, byteIn r 0xA6 0 1, halfIn r 0xA8 50 5000,
        byteIn r 0xAA 0 1, byteIn r 0xAB 0 7, byteIn r 0xAC 1 50, halfIn r 0xAE 1 500]
    ++ (List.range 8).flatMap poll

/-- The byte positions of the record that section 12.2 assigns (log entry 46). -/
def AssignedInRecord (i : Nat) : Prop := i < 0xE0 ∧ i ∉ [0x11, 0x16, 0x17, 0x41, 0x42, 0x43, 0x7F, 0xAD]

/-! ### Requests -/

/-- The state after a request has been answered (R13, R17): result code, result words, DONE, and RESULT. -/
def answered (slot code w0 w1 : Nat) (s : State) : State :=
  { s with
    mem := storeBytes (storeBytes (storeBytes s.mem (slot + 3) [byte code]) (slot + 8) (le32 w0 ++ le32 w1)) slot [3]
    attention := s.attention ||| 1 }

/-- The slot of a request holds its answer and RESULT is set. -/
def HoldsAnswer (slot code w0 w1 : Nat) (t : State) : Prop :=
  Memory.read t.mem slot = 3 ∧ Memory.read t.mem (slot + 3) = byte code
    ∧ Memory.readList t.mem (slot + 8) 8 = le32 w0 ++ le32 w1 ∧ t.attention.getLsbD 0 = true

/-- In RUNNING, a scan holds the request `r` of a kind, and its slot and the regions can be reached. -/
def InHand (kind : Nat) (r : Request) (s : State) : Prop :=
  s.part = .running ∧ s.list.handed = some r ∧ r.kind = kind ∧ s.list.resyncWaiting = false ∧ RegionsOk s
    ∧ r.slot + 64 ≤ 2 ^ 32

/-- The state with the request in hand handed over. -/
def released (s : State) : State := { s with list := { s.list with handed := none } }

/-- The list engine but for the request in hand, the event write cursor and the missed-event mask is unchanged. -/
def SameListButEvents (s t : State) : Prop :=
  t.list = { s.list with handed := none, evIndex := t.list.evIndex, evLap := t.list.evLap, missed := t.list.missed }

/-- Where the part can write memory and events: RUNNING, HALTING and HALTED. -/
def Working (s : State) : Prop := s.part = .running ∨ s.part = .halting ∨ s.part = .halted

/-! ### What is written, in order -/

/-- One thing the part does with memory and the attention bits. -/
inductive Act where
  /-- An event is handed to the list engine, which writes it or misses it (R168). -/
  | event (e : Event)
  /-- A request is answered (R13). -/
  | answer (slot code w0 w1 : Nat)
  /-- Bytes are stored from an address on. -/
  | store (a : Nat) (bytes : List Byte)
  /-- Attention bits are set. -/
  | attention (bits : BitVec 4)
  deriving DecidableEq, Repr

/-- The state after one of them. -/
def act (s : State) : Act → State
  | .event e => emit e s
  | .answer slot code w0 w1 => answered slot code w0 w1 s
  | .store a bytes => { s with mem := storeBytes s.mem a bytes }
  | .attention bits => { s with attention := s.attention ||| bits }

/-- Events one after another. -/
def events (es : List Event) : List Act := es.map .event

/-- An event as section 12.4 lists it: its kind and source codes, its payload length, and its payload fields, each an
offset and a width in bytes with the value that stands there, little-endian and two's complement (R175). -/
def Carries (e : Event) (kind source length : Nat) (fields : List (Nat × Nat × Int)) : Prop :=
  e.kind = kind ∧ e.source.code = source ∧ e.payload.length = length
    ∧ ∀ f ∈ fields, ∀ i < f.2.1, e.payload.getD (f.1 + i) 0 = BitVec.ofInt 8 (f.2.2 / 256 ^ i)

/-- `t` has the memory, the attention bits and the list engine that `s` has after these acts, in this order. -/
def Writes (as : List Act) (s t : State) : Prop :=
  let u := as.foldl act s
  t.mem = u.mem ∧ t.attention = u.attention ∧ t.list = u.list

/-! ### EXPOSURE_SET -/

/-- A present argument of an EXPOSURE_SET lies outside the range it is brought into (R95, section 6.1), where `e` is
the exposure unit after the request: t_pref outside [t_min, t_max] counts (log entry 35), a manual value counts in
MANUAL alone. -/
def exposureMoved (args : List Byte) (e : Exposure) : Bool :=
  let out := fun (bit value lo hi : Nat) => (u16 args 2).testBit bit && decide (min hi (max lo value) ≠ value)
  out 0 (u32 args 4) 20 200000 || out 1 (u32 args 8) e.tMin e.tMax || out 2 (u32 args 12) 20 200000
    || out 3 (u16 args 16) 256 4096 || out 4 (u16 args 18) 0 1023 || out 5 (u16 args 20) 0 1023
    || out 6 (u8 args 22) 16 235 || out 7 (u8 args 23) 0 32 || out 8 (u8 args 24) 1 16
    || (e.mode == .manual && (out 9 (u32 args 28) e.tMin e.tMax || out 10 (u16 args 32) 256 e.gMax
          || out 11 (u16 args 34) 0 e.lMax))

/-! ### Lamp updates -/

/-- `n` is the greatest number up to `top` that fits; 0 where none does. -/
def IsLargest (fits : Nat → Prop) (top n : Nat) : Prop :=
  n ≤ top ∧ (fits n ∨ n = 0) ∧ ∀ m, n < m → m ≤ top → ¬ fits m

/-- The average current of a channel at a level under a duty pair, every quotient rounded up (R78). -/
def reckoned (t tCap : Nat) (c : Channel) (level : Nat) : Nat :=
  let up := fun a b : Nat => (a + b - 1) / b
  match c.mode with
  | .off => 0
  | .steady => up (level * c.iFull) 1023
  | .strobe => up (up (level * c.iFull) 1023 * t) tCap

/-- The wanted level of a channel, brought down to the ceiling (R83, R84 step 1). -/
def wantedUnder (part : PartState) (stillLevel : Nat) (l : Lamp) (c : Channel) : Nat :=
  min (match c.mode, part, c.control with
    | .off, _, _ => 0
    | _, .running, .manual | _, .halting, .manual => c.manual
    | _, .running, .auto | _, .halting, .auto => if l.boost then stillLevel else l.wantedL
    | _, .halted, _ | _, .faulted, _ => c.standby
    | _, .off, _ | _, .loading, _ => 0) l.ceiling

/-- `a` is what a lamp update in `part` makes of `b` (R84 to R86, R90): each channel served one by one at the largest
level that fits the budget beside those before it, 0 after a reduced one; every AUTO channel at the largest common level
that fits; the budget cap, the total and the clamp flag. A channel of full-scale current 0 keeps its level, served or
AUTO (log entry 13); a boost brought down by the ceiling sets the flag (log entry 36). -/
def LampUpdated (part : PartState) (stillLevel : Nat) (b a : Lamp) : Prop :=
  let lit := decide (part = .running ∨ part = .halting)
  let auto := fun c : Channel => lit && decide (c.mode ≠ .off ∧ c.control = .auto)
  let served := fun c : Channel => decide (c.mode ≠ .off)
    && (decide (part = .halted ∨ part = .faulted) || lit && decide (c.control = .manual))
  let current := reckoned b.dutyT b.dutyCap
  let wanted := wantedUnder part stillLevel b
  let at_ := fun i => b.channels.getD i {}
  let level := fun i => (a.channels.getD i {}).applied
  let n := b.channels.length
  let spent := fun i => ((List.range i).map fun j => if served (at_ j) then current (at_ j) (level j) else 0).sum
  let autos := fun x => ((List.range n).map fun j => if auto (at_ j) then current (at_ j) x else 0).sum
  let fits := fun x => spent n + autos x ≤ b.budget
  let cut := fun i => ∃ j < i, served (at_ j) = true ∧ level j < wanted (at_ j)
  a.channels.length = n
    ∧ (∀ i < n, a.channels[i]? = some { at_ i with applied := level i }
        ∧ (served (at_ i) = true → ¬ cut i →
            IsLargest (fun x => spent i + current (at_ i) x ≤ b.budget) (wanted (at_ i)) (level i))
        ∧ (served (at_ i) = true → cut i →
            level i = if (at_ i).iFull = 0 then wanted (at_ i) else 0)
        ∧ (auto (at_ i) = true → level i = if (at_ i).iFull = 0 then wanted (at_ i) else a.lApp)
        ∧ (served (at_ i) = false → auto (at_ i) = false → level i = 0))
    ∧ (lit = true → IsLargest fits 1023 a.cap
        ∧ IsLargest fits (min 1023 (min (if b.boost then stillLevel else b.wantedL) b.ceiling)) a.lApp)
    ∧ (lit = false → a.cap = 0 ∧ a.lApp = 0)
    ∧ a.total = ((List.range n).map fun i => current (at_ i) (level i)).sum
    ∧ (a.clamp = true ↔ (∃ i < n, level i < wanted (at_ i))
        ∨ (b.boost = true ∧ b.ceiling < stillLevel ∧ ∃ i < n, auto (at_ i) = true))
    ∧ a = { b with channels := a.channels, cap := a.cap, lApp := a.lApp, total := a.total, clamp := a.clamp }

/-- The event of a lamp update: BUDGET_CLAMP where it sets the flag while it was clear (R85). -/
def clampEvents (part : PartState) (stillLevel : Nat) (b a : Lamp) : List Event :=
  if a.clamp && !b.clamp then
    [Event.budgetClamp b.budget
      ((b.channels.map fun c => reckoned b.dutyT b.dutyCap c (wantedUnder part stillLevel b c)).sum) a.total]
  else []

/-- The lamp update at entry to HALTED, where every boost has ended and no window is open (R91). -/
def haltedLamp (s : State) : Lamp × List Event :=
  lampUpdate .halted s.cfg.stillLevel { s.lamp with boost := false, strobe := false }

/-- The lamp update at the trigger start of a planned frame (R88). -/
def startLamp (p : FramePlan) (s : State) : Lamp × List Event :=
  lampUpdate s.part s.cfg.stillLevel
    { s.lamp with dutyT := p.t, dutyCap := p.tCap, wantedL := p.level, boost := s.lamp.boost || p.boost }

/-! ### The next frame -/

/-- The plan of the next frame, fixed now (R22, R23): `boost` where a still order waits for it. -/
def nextPlan (boost : Bool) (s : State) : FramePlan :=
  { t := s.exposure.planT, level := s.exposure.planL, tCap := max s.cfg.tSmin (s.exposure.planT + s.cfg.tRo)
    boost := boost
    dueAt := match s.capture.prevTrigger with
      | none => s.now
      | some q => max s.now (q.1 + q.2) }

/-- What a trigger start into store `k` writes (R25, R88). -/
def startWrites (k : Nat) (p : FramePlan) (s : State) : List Act :=
  [.store (storeBase s.cfg k) [1, 0], .store (storeBase s.cfg k + 4) (le32 (s.capture.seq + 1).toNat),
   .store (storeBase s.cfg k + 40) (le32 s.playout.frames.toNat)] ++ events (startLamp p s).2

/-- The event of a deferral that opens (R24). -/
def deferral (s : State) : Event :=
  Event.captureDeferred (s.capture.seq + 1) (heldStores s) (pinIndex s (·.playPin)) (pinIndex s (·.stillPin))

/-- The state after a planned frame has been triggered into store `k` (R25, R88, R160). -/
def startFrame (k : Nat) (p : FramePlan) (s : State) : State :=
  let seq := s.capture.seq + 1
  let lamp := (startLamp p s).1
  { (startWrites k p s).foldl act s with
    lamp := { lamp with strobe := true }
    ring := s.ring.set k { storeAt s k with state := .filling, seq := seq, hold := false }
    capture := { s.capture with
      trig := .exposing, seq := seq, selPtr := some k, prevTrigger := some (s.now, p.tCap), deferralOpen := false
      deadline := some (s.now + p.t + s.cfg.tRo + s.cfg.guardMs * 1000)
      frame := some { store := k, seq := seq, gain := s.exposure.gainInEffect
                      levels := lamp.channels.map (·.applied), autoLevel := lamp.lApp } }
    still := { s.still with orders := match s.still.orders with
      | [] => []
      | o :: os => (if p.boost && o.claimed then { o with frameSeq := seq } else o) :: os } }

/-- The state after the planned frame has been deferred (R24): the event once in an episode. -/
def deferFrom (s : State) : State :=
  { (if s.capture.deferralOpen then s else emit (deferral s) s) with
    capture := { s.capture with trig := .deferred, deferralOpen := true } }

/-- The state of a capture unit that has a planned frame: it waits for its moment, or has triggered or deferred it. -/
def awaited (p : FramePlan) (s : State) : State :=
  let s := { s with capture := { s.capture with plan := some p, trig := .waiting } }
  if s.now < p.dueAt then s else
  match selectStore s with
  | some k => startFrame k p s
  | none => deferFrom s

/-- The state after the next plan has been fixed in RUNNING, with the claim of a still order that waits (R22, R161). -/
def nextFrame (s : State) : State :=
  let claims := boostWaiting s.still
  awaited (nextPlan claims s) { s with still := { s.still with orders := match claims, s.still.orders with
    | true, o :: os => { o with claimed := true, frameSeq := 0 } :: os
    | _, os => os } }

/-- The state after the release of a hold or a pin has been reported: a DEFERRED capture unit repeats its selection
(R24). -/
def retried (s : State) : State :=
  match s.capture.trig, selectStore s, s.capture.plan with
  | .deferred, some k, some p => startFrame k p s
  | _, _, _ => s

/-! ### Still orders -/

/-- The still unit after a MARK or STOP order has reached it (R160). -/
def orderedStill (o : StillOrigin) (s : State) : Still :=
  if s.part = .running ∧ s.still.orders.length < 2 then
    { s.still with orders := s.still.orders ++ [{ origin := o, claimed := false, frameSeq := 0 }] }
  else s.still

/-- The report of a MARK or STOP order that finds no place: QUEUE_FULL in RUNNING, else NOT_RUNNING (R160). -/
def orderWrites (o : StillOrigin) (s : State) : List Act :=
  if s.part = .running then
    if s.still.orders.length < 2 then [] else [.event (Event.stillMissed 0 o.code 0xFF 0)]
  else [.event (Event.stillMissed 1 o.code 0xFF 0)]

/-- The report of an order that gives no still: a SNAPSHOT is answered, a MARK or STOP order is lost with
STILL_MISSED. -/
def lostOrder (o : StillOrigin) (code w0 cause entry : Nat) (seq : Word) : Act :=
  match o with
  | .snapshot slot => .answer slot code w0 seq.toNat
  | .mark => .event (Event.stillMissed cause 0 entry seq)
  | .stop => .event (Event.stillMissed cause 1 entry seq)

/-! ### Reports and regions -/

/-- An event of a kind has been written, or missed (R167 to R170). -/
def Reported (kind : Nat) (t : State) : Prop := t.attention.getLsbD 1 = true ∨ t.list.missed.getLsbD kind = true

/-- No byte of one range lies in the other. -/
def Apart (a b : Nat × Nat) : Prop := ∀ x, InRange a x → ¬ InRange b x

/-! ### The end of a HALT -/

/-- The ring table without playout pins. -/
def unpinned (ring : List RingEntry) : List RingEntry := ring.map fun e => { e with playPin := false }

/-- The state of the part once work in flight has ended: in HALTING, with the last of it, HALTED (R8, R9, R54, R91). -/
def settled (s : State) : State :=
  if s.part = .halting ∧ inFlight s = false then
    { (events (haltedLamp s).2).foldl act s with
      part := .halted, lamp := (haltedLamp s).1, ring := unpinned s.ring
      playout := { s.playout with shown := none }, chainage := s.chainage.setNotRunning true }
  else s

/-! ### The head bus -/

/-- The lamp unit after a stale condition arose (R81, R82): the flag, TEMP_STALE, and the floor as the ceiling. -/
def staled (part : PartState) (cfg : Cfg) (cause : StaleCause) (l : Lamp) : Lamp × List Event :=
  let stale := { l with stale := true }
  if l.stale then (l, [])
  else if l.ceiling = cfg.floor then (stale, [Event.tempStale cause l.tempAge])
  else
    let lit := lampUpdate part cfg.stillLevel { stale with ceiling := cfg.floor }
    (lit.1, Event.tempStale cause l.tempAge :: lit.2)

/-- The lamp unit after a failed poll of the TEMPERATURE entry (R81). -/
def tempMissed (part : PartState) (cfg : Cfg) (l : Lamp) : Lamp × List Event :=
  let counted := { l with tempFails := min 255 (l.tempFails + 1) }
  if counted.tempFails = 4 then staled part cfg .failures counted else (counted, [])

/-- The exposure unit after a gain write that failed (R102). -/
def writeFailed (e : Exposure) : Exposure :=
  { e with
    failures := min 255 (e.failures + 1), retry := true, behind := false
    gws := if e.behind then .queued else .idle, handedGain := if e.behind then e.handedGain else none }

/-- The state after a gain write of `v` failed (R102): the third in a row is reported. -/
def failedGain (o : BusOutcome) (v : Nat) (s : State) : State :=
  let s' := { s with exposure := writeFailed s.exposure }
  if s'.exposure.failures = 3 then emit (Event.gainWriteFailed v s.exposure.gainInEffect o) s' else s'

/-- The state after the poll of entry `j` failed (R152): the fourth failure is reported, a TEMPERATURE failure goes
on to the lamp unit (log entry 39). -/
def failedPoll (o : BusOutcome) (j : Nat) (s : State) : State :=
  let p := s.bus.polls.getD j {}
  let n := min 255 (p.slot.failures + 1)
  let lamp := if p.entry.role = .temperature then tempMissed s.part s.cfg s.lamp else (s.lamp, [])
  let report := if n = 4 then [Event.pollFailing j p.entry.address o] else []
  (events (report ++ lamp.2)).foldl act { s with
    lamp := lamp.1
    bus := { s.bus with polls := s.bus.polls.set j { p with slot := { p.slot with failures := n } } } }

/-- The bus without its transaction, in a state. -/
def letGo (next : BusState) (s : State) : State :=
  { s with bus := { s.bus with state := next, busyTimer := none, inHand := none } }

/-- The state after a gain write or a poll in hand failed with an outcome (R102, R152), the unit in `next`; a poll whose
entry was replaced since is not recorded. -/
def failed (owner : TxnOwner) (o : BusOutcome) (next : BusState) (s : State) : State :=
  match owner with
  | .gain v => failedGain o v (letGo next s)
  | .poll j false => failedPoll o j (letGo next s)
  | .poll _ true => letGo next s
  | .host _ => s

/-- The exposure unit once the write of the update `g` has begun (R150). -/
def writing (g : Nat) (e : Exposure) : Exposure :=
  { e with gws := .writing, handedGain := some g, busGain := g, behind := false }

/-- The state after a transaction was taken into hand in IDLE (R145, R150). -/
def taken (x : Txn) (s : State) : State :=
  { s with bus := { s.bus with
      inHand := some x, retries := 0, state := if s.bus.monitorBusy then .waitFree else .active
      busyTimer := if s.bus.monitorBusy then some (s.now + s.cfg.busyMs * 1000) else s.bus.busyTimer } }

/-- The due entries of the poll table, lowest index first. -/
def dueEntries (s : State) : List Nat := (List.range s.bus.polls.length).filter fun j => (s.bus.polls.getD j {}).due

/-- The due flag of an entry cleared. -/
def dueTaken (j : Nat) (s : State) : State :=
  { s with bus := { s.bus with polls := s.bus.polls.set j { s.bus.polls.getD j {} with due := false } } }

/-- The state after the unit in IDLE looked for work (R150): the pending gain update, else the due entry of lowest
index, else the oldest host transfer, with its buffer read, is taken into hand (R151, R154, R156). -/
def takesWork (s : State) : State :=
  match s.bus.pendingGain, dueEntries s, s.bus.queue with
  | some g, _, _ => taken { owner := .gain g, address := s.cfg.sensorAddr, readLen := 0
                            write := [s.cfg.gainReg, byte (g / 256), byte g] }
      { s with exposure := writing g s.exposure, bus := { s.bus with pendingGain := none } }
  | none, j :: _, _ =>
    let e := (s.bus.polls.getD j {}).entry
    taken { owner := .poll j false, address := e.address, write := [e.register], readLen := e.length } (dueTaken j s)
  | none, [], h :: _ => taken { owner := .host h, address := h.address, readLen := h.readLen
                                write := if h.buffered then Memory.readList s.mem h.buffer h.writeLen
                                  else h.inline.take h.writeLen } s
  | none, [], [] => s

/-- The state after the unit in FAULT looked for work (R147): everything that waits ends BUS_FAULT in the service
order. -/
def drained (s : State) : State :=
  if s.bus.pendingGain = none ∧ dueEntries s = [] ∧ s.bus.queue = [] then s else
  let idle := { s with bus := { s.bus with retries := 0, busyTimer := none } }
  let gained := match s.bus.pendingGain with
    | none => idle
    | some g => failedGain .busFault g
        { idle with exposure := writing g s.exposure, bus := { idle.bus with pendingGain := none } }
  let polled := (dueEntries s).foldl (fun u j => failedPoll .busFault j (dueTaken j u)) gained
  s.bus.queue.foldl (fun u h => answered h.slot 15 0 0 u) { polled with bus := { polled.bus with queue := [] } }

/-- The state after the head bus unit looked for work: only in RUNNING, with no transaction in hand (R150, R157). -/
def served (s : State) : State :=
  if s.part = .running ∧ s.bus.inHand = none then
    if s.bus.state = .idle then takesWork s else if s.bus.state = .fault then drained s else s
  else s

/-- The poll table has its eight entries, the host transfer queue no more than four, and the slots and buffers of the
transfers can be reached. -/
def BusReachable (s : State) : Prop :=
  s.bus.polls.length = 8 ∧ s.bus.queue.length ≤ 4
    ∧ ∀ h ∈ s.bus.queue, h.slot + 64 ≤ 2 ^ 32 ∧ (h.buffered = true → h.buffer + h.writeLen ≤ 2 ^ 32)

/-- The head bus unit, when it looks for work, reads no memory and fails nothing: it is not in FAULT, and it is busy or
no host transfer waits. -/
def BusQuiet (s : State) : Prop := s.bus.state ≠ .fault ∧ (s.bus.inHand.isSome = true ∨ s.bus.queue = [])

/-! ### Overlay edits -/

/-- `r` is what an edit makes of `o` that would write these cells: at a place of the stored grid, or beyond it (R64). Of
a layered edit, a layer above 3, or layer 3 for a cell it would write, refuses it whole (log entry 32). Else the cells
at places outside the stamp field are written and counted, the others are counted as refused. -/
def CellsWritten (cfg : Cfg) (o : Overlay) (layered clamped : Bool) (cells : List (Option Nat × Cell))
    (r : EditResult) : Prop :=
  let written := cells.filter fun p => p.1.any fun i => !inStampField cfg i
  let refused := layered && (cells.any (fun p => decide (3 < p.2.layer)) || written.any fun p => p.2.layer == 3)
  (refused = true → r = ⟨o, 3, 0, 0⟩)
    ∧ (refused = false → r.w0 = written.length ∧ r.w1 = cells.length - written.length
        ∧ r.code = (if written = [] then 3 else if clamped then 1 else 0)
        ∧ r.overlay = { o with cells := r.overlay.cells } ∧ r.overlay.cells.length = o.cells.length
        ∧ ∀ (i : Nat) (c : Cell), o.cells[i]? = some c →
            (∀ p ∈ written, p.1 = some i → r.overlay.cells[i]? = some p.2)
            ∧ ((∀ p ∈ written, p.1 ≠ some i) → r.overlay.cells[i]? = some c))

/-! ### Link messages -/

/-- A message as it stands on the line (manual section 12.6, R129). -/
def wireBytes (address kind : Byte) (payload : List Byte) : List Byte :=
  let body := address :: kind :: byte payload.length :: payload
  0xC5 :: body ++ [(crcOf body).extractLsb' 8 8, (crcOf body).extractLsb' 0 8]

/-- A message that the filter accepts arrives whole while the receiver hunts: its bytes, with the link unit active. -/
def Arrives (address kind : Byte) (payload bytes : List Byte) (s : State) : Prop :=
  linkActive s = true ∧ s.link.rx.state = .hunt ∧ payload.length ≤ 32 ∧ bytes = wireBytes address kind payload
    ∧ filterAccepts s.cfg ⟨address, kind, payload⟩ = true

/-- The link unit after an accepted message taken at a moment (R131). -/
def heardLink (moment : Nat) (s : State) : Link :=
  { s.link with rx := {}, state := .up, silence := some (max s.now moment + s.cfg.silenceMs * 1000) }

/-- The list engine but for the event write cursor and the missed-event mask is unchanged. -/
def SameListButEvent (s t : State) : Prop :=
  t.list = { s.list with evIndex := t.list.evIndex, evLap := t.list.evLap, missed := t.list.missed }

/-! ### Invariants -/

/-- Board memory is in canonical form. -/
def MemoryCanonical (s : State) : Prop := Memory.wf s.mem = true

/-- NOT_RUNNING is in the drive hold reason set exactly when the part state is not RUNNING (R122). -/
def HoldFollowsPart (s : State) : Prop := s.chainage.reasons.notRunning = decide (s.part ≠ .running)

/-- X, the base chainage and the origin value lie in −999,994..9,999,994 (R107, R110). -/
def ChainageInRange (s : State) : Prop :=
  let ok := fun x : Int => Config.xMin ≤ x ∧ x ≤ Config.xMax
  ok s.chainage.x ∧ ok s.chainage.baseX ∧ ok s.chainage.originValue

/-- While a boost frame is planned or in progress, the head order has claimed it; or no order is left, outside RUNNING
(R161, R165). -/
def BoostFrameHeld (s : State) : Prop :=
  ∀ p ∈ s.capture.plan, p.boost = true →
    (∃ o ∈ s.still.orders.head?, o.claimed = true) ∨ (s.still.orders = [] ∧ s.part ≠ .running)

/-- In LOADING, and only there, a load is under way (R5). -/
def LoadingMatchesPart (s : State) : Prop := s.loading.isSome = decide (s.part = .loading)

/-- No applied lamp level is above the ceiling and the total current is within the budget in force; in LOADING every
level and the total are 0 (R84, R91). -/
def LampWithinLimits (s : State) : Prop :=
  (∀ c ∈ s.lamp.channels, c.applied ≤ s.lamp.ceiling) ∧ s.lamp.total ≤ s.lamp.budget
    ∧ s.lamp.total = totalCurrent s.lamp.dutyT s.lamp.dutyCap s.lamp.channels (s.lamp.channels.map (·.applied))
    ∧ (s.part = .loading → s.lamp.total = 0 ∧ ∀ c ∈ s.lamp.channels, c.applied = 0)

/-- The request in hand is one its unit has room for (R16). -/
def HandedHasRoom (s : State) : Prop :=
  match s.list.handed with
  | none => True
  | some r => unitRoom r.kind s = true

/-- The poll table has its 8 entries (R151); the host transfer queue, the still order queue, the host places of the
uplink queue and the banner FIFO hold no more than 4, 2, 3 and 128 items (R16, R160, R126, R69). -/
def QueuesBounded (s : State) : Prop :=
  s.bus.polls.length = 8 ∧ s.bus.queue.length ≤ 4 ∧ s.still.orders.length ≤ 2 ∧ hostPlaces s.link ≤ 3
    ∧ s.overlay.fifo.length ≤ 128 ∧ HandedHasRoom s

end Sys2Proof.Safety
end

