-- ==== Sys2Proof/Certificates/Slice0/Obligations.lean ====
section
/-! DEFINITION. The statements about the EC-740 model. Each names the happenings it speaks of, the next state they
answer, and what they leave unchanged. -/

open Sys2Proof Sys2Proof.Machine Sys2Proof.Safety

/-! ### The queue, reset and the registers -/

/-- A step carries out the command at the front of the queue on the state with the queue's rest; on an empty queue,
with no copy of a still under way, it changes nothing. The queue and the idle step are the model's own (log entry 1);
with a copy under way the idle step moves it on (log entry 11). -/
def Obligations.StepTakesFrontCommand : Prop :=
  (∀ (c : Instr) (rest : List Instr) (s : State),
      s.pending = c :: rest → step s = exec c { s with pending := rest })
    ∧ ∀ s : State, s.pending = [] → s.still.copy = none → step s = .next s

/-- What power-on reset leaves, block by block: the values chapters 1 to 11 give. -/
def Obligations.ResetLeavesSpecValues : Prop :=
  let s := State.reset
  (s.part = .off ∧ s.workBase = 0 ∧ s.attention = 0 ∧ s.attentionMask = 0 ∧ attn s = false)
  ∧ (s.list.reqIndex = 0 ∧ s.list.reqLap = 0 ∧ s.list.listState = .active ∧ s.list.scanning = false
      ∧ s.list.pollTimer = none ∧ s.list.evIndex = 0 ∧ s.list.evLap = 0 ∧ s.list.missed = 0)
  ∧ (s.capture.trig = .idle ∧ s.capture.plan = none ∧ s.capture.selPtr = none ∧ s.capture.seq = 0
      ∧ s.capture.abandons = 0 ∧ s.capture.los = false ∧ s.capture.prevTrigger = none ∧ s.capture.deadline = none
      ∧ s.capture.completed = 0 ∧ s.capture.abandoned = 0 ∧ s.capture.deferralOpen = false)
  ∧ (∀ e ∈ s.ring, e.state = .void ∧ e.seq = 0 ∧ e.hold = false ∧ e.playPin = false ∧ e.stillPin = false)
  ∧ (s.playout.timer = none ∧ s.playout.frames = 0 ∧ s.playout.shown = none ∧ s.playout.lastShown = 0
      ∧ s.playout.consec = 0 ∧ s.playout.stallOpen = false ∧ s.playout.stallLatch = false
      ∧ s.playout.underruns = 0 ∧ s.playout.notShown = 0)
  ∧ (s.overlay.cells.length = 3072 ∧ (∀ c ∈ s.overlay.cells, c = { ch := 0x20, attr := 0, blink := false, layer := 0 })
      ∧ s.overlay.palette = List.replicate 16 { y := 0, cb := 128, cr := 128, opacity := 0 }
      ∧ s.overlay.glyphs = List.replicate 1536 0 ∧ s.overlay.key = 0 ∧ s.overlay.care = 0xF
      ∧ s.overlay.layerEnable = 0xF ∧ s.overlay.fifo = [] ∧ s.overlay.pan = 0 ∧ s.overlay.edits = []
      ∧ s.overlay.flash = 0)
  ∧ (s.lamp.channels.length = 6
      ∧ (∀ c ∈ s.lamp.channels, c.mode = .off ∧ c.control = .manual ∧ c.iFull = 0 ∧ c.manual = 0 ∧ c.standby = 0
            ∧ c.applied = 0)
      ∧ s.lamp.budget = 0 ∧ s.lamp.temp = none ∧ s.lamp.stale = false ∧ s.lamp.cut = false ∧ s.lamp.ceiling = 0
      ∧ s.lamp.total = 0)
  ∧ (s.exposure.mode = .manual ∧ s.exposure.gainInEffect = 256 ∧ s.exposure.gws = .idle
      ∧ s.exposure.retry = false ∧ s.exposure.failures = 0 ∧ s.exposure.last = none)
  ∧ (s.chainage.run = .stopped ∧ s.chainage.held = false ∧ s.chainage.countReceived = false
      ∧ s.chainage.lastCount = 0 ∧ s.chainage.originValid = false ∧ s.chainage.x = 0 ∧ s.chainage.baseX = 0
      ∧ s.chainage.originValue = 0 ∧ s.chainage.scale = 65536 ∧ s.chainage.forward = true
      ∧ s.chainage.stepLimit = 65535 ∧ s.chainage.rejects = 0 ∧ s.chainage.markInterval = 0
      ∧ s.chainage.nextMark = none ∧ s.chainage.stopTarget = none ∧ s.chainage.fired = false
      ∧ s.chainage.reasons.code = 1 ∧ holdOut s = true)
  ∧ (s.link.rx.state = .hunt ∧ s.link.state = .down ∧ s.link.silence = none ∧ s.link.cadence = 0
      ∧ s.link.queue = [] ∧ s.link.sending = none)
  ∧ (s.bus.state = .idle ∧ s.bus.monitorBusy = false ∧ s.bus.inHand = none ∧ s.bus.retries = 0
      ∧ s.bus.pendingGain = none ∧ s.bus.queue = [] ∧ s.bus.resets = [] ∧ s.bus.polls.length = 8
      ∧ (∀ p ∈ s.bus.polls, p.entry.enable = false ∧ p.countdown = 0 ∧ p.due = false ∧ p.slot.held = false))
  ∧ s.still.orders = [] ∧ s.still.copy = none

/-- Writes to ATTENTION and ATTENTION_MASK, bit by bit, and the ATTN line that follows both. RESULT, EVENT, STILL and
FAULT are bits 0 to 3. -/
def Obligations.AttentionRegistersAndLine : Prop :=
  ∀ (v : Word) (s : State),
    (∃ t, exec (.attentionWrite v) s = .next t ∧ t = { s with attention := t.attention }
        ∧ ∀ i < 4, t.attention.getLsbD i = (s.attention.getLsbD i && !v.getLsbD i))
    ∧ (∃ t, exec (.attentionMaskWrite v) s = .next t ∧ t = { s with attentionMask := t.attentionMask }
        ∧ ∀ i < 4, t.attentionMask.getLsbD i = v.getLsbD i)
    ∧ (attn s = true ↔ ∃ i < 4, s.attention.getLsbD i = true ∧ s.attentionMask.getLsbD i = true)
    ∧ attResult = 1 ∧ attEvent = 2 ∧ attStill = 4 ∧ attFault = 8

/-- A write to CONTROL gives exactly one named command to the part, which takes it in the states of R3's table and
ignores it without a trace elsewhere; the other registers are written, and IDENT, WORK_BASE, CONTROL, ATTENTION and
its mask are read, as section 12.1 gives. The offsets are those of section 12.1. Model's choices: LIST_RESYNC with a
slot in hand waits for it (log entries 4 and 25), and a register write of another width or offset is none of these
commands (log entry 24). -/
def Obligations.RegisterWriteGivesNamedCommand : Prop :=
  ∀ (v : Word) (s : State),
    (∃ t, exec (.registerWrite 0x08 v) s = .next t)
    ∧ (v.toNat % 16 = 1 → exec (.registerWrite 0x08 v) s = exec .start s)
    ∧ (v.toNat % 16 = 2 → exec (.registerWrite 0x08 v) s = exec .halt s)
    ∧ (v.toNat % 16 = 4 → exec (.registerWrite 0x08 v) s = exec .softReset s)
    ∧ (v.toNat % 16 = 8 → exec (.registerWrite 0x08 v) s = exec .listResync s)
    ∧ (v.toNat % 16 ∉ [1, 2, 4, 8] → exec (.registerWrite 0x08 v) s = .next s)
    ∧ (s.part ∈ [.loading, .running, .halting, .faulted] → exec .start s = .next s)
    ∧ (s.part ∈ [.off, .halted] → ∃ t, exec .start s = .next t ∧ t.part = .loading)
    ∧ (s.part ∈ [.off, .loading, .halting, .halted, .faulted] → exec .halt s = .next s)
    ∧ (s.part = .running → ∃ t, exec .halt s = .next t ∧ t.part ∈ [.halting, .halted, .faulted])
    ∧ (s.part ∈ [.off, .loading, .halting, .faulted] → exec .listResync s = .next s)
    ∧ (s.part ∈ [.running, .halted] → ∃ t, exec .listResync s = .next t ∧ (t.list.resyncWaiting = true
        ∨ t.list.reqIndex = 0 ∧ t.list.reqLap = 0 ∧ t.list.listState = .active))
    ∧ (∃ t, exec .softReset s = .next t ∧ t.part = .off)
    ∧ (readRegister s 0x08).toNat
        = (match s.part with
          | .off => 0 | .loading => 1 | .running => 2 | .halting => 3 | .halted => 4 | .faulted => 5)
        + 256 * (match s.list.listState with | .active => 0 | .faulted => 1)
    ∧ readRegister s 0x04 = s.workBase ∧ (readRegister s 0x0C).toNat = s.attention.toNat
    ∧ (readRegister s 0x10).toNat = s.attentionMask.toNat
    ∧ exec (.registerWrite 0x00 v) s = .next s ∧ readRegister s 0x00 = 0x0E740100
    ∧ exec (.registerWrite 0x0C v) s = exec (.attentionWrite v) s
    ∧ exec (.registerWrite 0x10 v) s = exec (.attentionMaskWrite v) s
    ∧ exec (.registerWrite 0x04 v) s = exec (.workBaseWrite v) s
    ∧ ((s.part = .off ∨ s.part = .halted) →
        ∃ t, exec (.workBaseWrite v) s = .next t ∧ t = { s with workBase := t.workBase }
          ∧ t.workBase.toNat = v.toNat / 4096 * 4096 ∧ readRegister t 0x04 = t.workBase)
    ∧ (s.part ≠ .off → s.part ≠ .halted → exec (.workBaseWrite v) s = .next s)

/-! ### Part states -/

/-- START in OFF or HALTED: LOADING is entered, the timers stop, every pin is dropped while states and holds of the
stores stay, every applied lamp level is 0, the receiver hunts, no HEAD_STATUS waits while host messages do; a message
on the wire goes on to its end; no memory access and no event. Model's choice: the picture of the period ends (log
entry 27). -/
def Obligations.StartEntersLoading : Prop :=
  ∀ s : State, (s.part = .off ∨ s.part = .halted) →
    ∃ t, exec .start s = .next t ∧ t.part = .loading
      ∧ (∃ l, t.loading = some l ∧ l.preparing = false ∧ l.origin.part = s.part)
      ∧ t.link.rx.state = .hunt ∧ holdOut t = true
      ∧ t = { s with
              part := .loading, loading := t.loading
              ring := s.ring.map fun e => { e with playPin := false, stillPin := false }
              lamp := { s.lamp with
                channels := s.lamp.channels.map fun c => { c with applied := 0 }
                boost := false, strobe := false, cap := 0, lApp := 0, total := 0, clamp := false }
              chainage := s.chainage.setNotRunning true
              list := { s.list with pollTimer := none }
              playout := { s.playout with timer := none, video := .none, shown := none }
              link := { s.link with
                rx := t.link.rx, queue := s.link.queue.filter fun m => m.host.isSome, silence := none } }

/-- A refused START. The checks are the rows of R5's table and the chapters' tables, in order of offset, each with its
range and code, over the byte positions that section 12.2 assigns. By the first that fails, the part returns to the
state it was started in, the status record at the base just read holds the returned state and the refusal code and
offset, and is followed by the lamp update of that state with its BUDGET_CLAMP, and by FAULT. The timers of that state
run again, and every other field keeps what it had. Model's choices: the offset at which a relation of fields is
checked (log entry 22), the silence timer on the return to HALTED (log entry 15), FAULT after the lamp update's event
(log entry 9), and that byte positions the record does not assign are not read (log entry 46). -/
def Obligations.RefusedStartReturnsAndReports : Prop :=
  ∀ (m : Nat) (s : State) (l : Loading) (k : Check),
    s.part = .loading → s.loading = some l → l.preparing = false → Memory.wf s.mem = true → s.errors = [] →
    s.workBase.toNat + 0x284 ≤ 2 ^ 32 → (l.origin = .halted → RegionsOk s) →
    let r := recordBytes configAssigns s.mem s.workBase.toNat 256
    firstFailure r = some k →
    let lamp := lampUpdate l.origin.part s.cfg.stillLevel { s.lamp with boost := false, strobe := false }
    let record := statusRecord l.origin.part { s with refusalCode := k.code, refusalOffset := k.offset }
    (∀ bytes, configChecks bytes = startTable bytes) ∧ (∀ i, configAssigns i = true ↔ AssignedInRecord i)
    ∧ (startTable r).Pairwise (fun a b => a.offset ≤ b.offset)
    ∧ (∃ before after, startTable r = before ++ k :: after ∧ k.ok = false ∧ ∀ b ∈ before, b.ok = true)
    ∧ ∃ t, exec (.configurationLoad m) s = .next t ∧ t.part = l.origin.part ∧ t.loading = none
      ∧ t.refusalCode = k.code ∧ t.refusalOffset = k.offset ∧ t.attention.getLsbD 3 = true
      ∧ SameOutside [statusArea s.workBase.toNat, eventList s] s t
      ∧ ((∀ a, InRange (statusArea s.workBase.toNat) a → ¬ InRange (eventList s) a) →
          Memory.read t.mem (s.workBase.toNat + 0x104) = byte l.origin.part.code
          ∧ Memory.read t.mem (s.workBase.toNat + 0x106) = byte k.code
          ∧ Memory.readList t.mem (s.workBase.toNat + 0x108) 2 = le16 k.offset)
      ∧ (l.origin = .halted → t.playout.timer = some (max s.now m + outputPeriod s.cfg))
      ∧ (l.origin = .off → t.playout.timer = s.playout.timer)
      ∧ t.lamp = lamp.1
      ∧ Writes (.store (s.workBase.toNat + 0x100) record :: events lamp.2 ++ [.attention attFault])
          { s with part := l.origin.part } t
      ∧ t.link.silence = (if l.origin = .off then s.link.silence
          else if s.link.state = .lost then none else some (max s.now m + s.cfg.silenceMs * 1000))
      ∧ t.list = { s.list with evIndex := t.list.evIndex, evLap := t.list.evLap, missed := t.list.missed }
      ∧ t.link = { s.link with silence := t.link.silence }
      ∧ t = { s with
              now := max s.now m, part := t.part, loading := none, mem := t.mem, attention := t.attention
              refusalCode := t.refusalCode, refusalOffset := t.refusalOffset, list := t.list, lamp := t.lamp
              link := t.link, chainage := s.chainage.setNotRunning true
              playout := { s.playout with timer := t.playout.timer } }

/-- A load whose checks all pass: every field of the configuration is read at its offset of section 12.2, every block
takes the values of its chapter's table, each channel record is the configured one with its level kept, the regions
are those at the base read, the code is NONE, and memory is not written. The geometry of the lists or of the ring
counts as changed from OFF, and from HALTED exactly where one of its values differs from the one in force. Model's
choice: the load and the region preparation are two steps, so the part is still in LOADING here, as spec/95 has them;
a message on the wire is kept (log entry 14); byte positions the record does not assign are not read (log entry 46).
-/
def Obligations.AcceptedLoadTakesValues : Prop :=
  ∀ (m : Nat) (s : State) (l : Loading),
    s.part = .loading → s.loading = some l → l.preparing = false → s.errors = [] →
    s.workBase.toNat + 0x284 ≤ 2 ^ 32 →
    let r := recordBytes configAssigns s.mem s.workBase.toNat 256
    firstFailure r = none →
    let cfg := parseCfg r
    let list := fun c : Cfg => (c.listBase, c.slots, c.eventBase, c.eventCount)
    let ring := fun c : Cfg => (c.ringBase, c.stores, c.stride, c.width, c.height)
    let channel := fun i : Nat => let o := 0x44 + 8 * i
      { mode := [LampMode.off, .steady, .strobe].getD (u8 r o) .off
        control := [LampControl.auto, .manual].getD (u8 r (o + 1)) .manual
        iFull := u16 r (o + 2), manual := u16 r (o + 4), standby := u16 r (o + 6) : ChannelCfg }
    let poll := fun j : Nat => let o := 0xB0 + 6 * j
      { enable := decide (u8 r o ≠ 0), address := u8 r (o + 1), register := r.getD (o + 2) 0, length := u8 r (o + 3)
        period := u8 r (o + 4), role := [PollRole.general, .temperature].getD (u8 r (o + 5)) .general : PollEntry }
    let flag := fun o => decide (u8 r o ≠ 0)
    (∀ b ∈ startTable r, b.ok = true)
    ∧ cfg =
      { slots := u16 r 0x00, eventCount := u16 r 0x02, listBase := u32 r 0x04, eventBase := u32 r 0x08
        ringBase := u32 r 0x0C, stores := u8 r 0x10, width := u16 r 0x12, height := u16 r 0x14, stride := u32 r 0x18
        tSmin := u32 r 0x1C, tRo := u32 r 0x20, guardMs := u8 r 0x24, burnIn := flag 0x25
        winLeft := u16 r 0x26, winTop := u16 r 0x28, winWidth := u16 r 0x2A, winHeight := u16 r 0x2C
        cadence := u8 r 0x2E, underrunFill := flag 0x2F, stallLimit := u8 r 0x30
        fillY := r.getD 0x31 0, fillCb := r.getD 0x32 0, fillCr := r.getD 0x33 0, pollMs := u8 r 0x34
        scale := u8 r 0x35, stampEnable := flag 0x36, stampRow := u8 r 0x37, stampCol := u8 r 0x38
        stampAttr := r.getD 0x39 0, markAttr := r.getD 0x3A 0, markFlash := u8 r 0x3B, blinkPeriod := u8 r 0x3C
        bannerEnable := flag 0x3D, bannerRow := u8 r 0x3E, bannerAttr := r.getD 0x3F 0, scrollSpeed := u8 r 0x40
        channels := (List.range 6).map channel, pwmHz := u16 r 0x74, budget := u16 r 0x76, stillLevel := u16 r 0x78
        tDerate := s16 r 0x7A, tCut := s16 r 0x7C, hysteresis := u8 r 0x7E, floor := u16 r 0x80
        expAuto := decide (u8 r 0x82 = 0), damping := u8 r 0x83, tMin := u32 r 0x84, tPref := u32 r 0x88
        tMax := u32 r 0x8C, gMax := u16 r 0x90, lMin := u16 r 0x92, lMax := u16 r 0x94, target := u8 r 0x96
        tolerance := u8 r 0x97, initT := u32 r 0x98, initG := u16 r 0x9C, initL := u16 r 0x9E
        sensorAddr := u8 r 0xA0, gainReg := r.getD 0xA1 0, linkLossHold := flag 0xA2, baud := u8 r 0xA3
        unitMatch := r.getD 0xA4 0, unitMask := r.getD 0xA5 0, management := flag 0xA6, cadenceK := u8 r 0xA7
        silenceMs := u16 r 0xA8, busRate := u8 r 0xAA, retryLimit := u8 r 0xAB, stretchMs := u8 r 0xAC
        busyMs := u16 r 0xAE, poll := (List.range 8).map poll }
    ∧ ∃ t, exec (.configurationLoad m) s = .next t ∧ t.part = .loading
      ∧ (∃ l', t.loading = some l' ∧ l'.preparing = true ∧ l'.origin = l.origin
          ∧ (l.origin = .off → l'.listChanged = true ∧ l'.ringChanged = true)
          ∧ (l.origin = .halted → (l'.listChanged = true ↔ list cfg ≠ list s.cfg)
              ∧ (l'.ringChanged = true ↔ ring cfg ≠ ring s.cfg)))
      ∧ t.cfg = cfg ∧ t.cfgTaken = true ∧ t.areaBase = s.workBase.toNat ∧ t.refusalCode = 0 ∧ t.refusalOffset = 0
      ∧ t.mem = s.mem ∧ t.attention = s.attention ∧ t.list = s.list ∧ t.ring = s.ring ∧ t.capture = s.capture
      ∧ t.playout = s.playout ∧ t.still = s.still
      ∧ t.chainage = { s.chainage with linkLossHold := cfg.linkLossHold }
      ∧ (∀ (i : Nat) (c : Channel) (k : ChannelCfg), s.lamp.channels[i]? = some c → cfg.channels[i]? = some k →
          t.lamp.channels[i]? = some { mode := k.mode, control := k.control, iFull := k.iFull, manual := k.manual
                                       standby := k.standby, applied := c.applied })
      ∧ (t.lamp.tempPresent = true ↔ ∃ e ∈ cfg.poll, e.enable = true ∧ e.role = .temperature)
      ∧ t.lamp = { s.lamp with
          channels := t.lamp.channels, dutyT := 1, dutyCap := 1, boost := false, strobe := false, budget := cfg.budget
          temp := none, tempAge := 0, tempFails := 0, tempPresent := t.lamp.tempPresent, stale := false, cut := false
          clamp := false, ceiling := cfg.floor }
      ∧ t.exposure = { s.exposure with
          mode := if cfg.expAuto then .auto else .manual
          tMin := cfg.tMin, tPref := cfg.tPref, tMax := cfg.tMax, gMax := cfg.gMax, lMin := cfg.lMin, lMax := cfg.lMax
          target := cfg.target, tolerance := cfg.tolerance, damping := cfg.damping, planL := cfg.initL
          planT := cfg.initT, planG := cfg.initG, lCap := cfg.lMax, gws := .idle, handedGain := none, behind := false
          retry := false, failures := 0 }
      ∧ t.link = { s.link with rx := {}, state := .down, silence := none, cadence := 0, queue := [] }
      ∧ t.bus = { s.bus with
          inHand := none, retries := 0, busyTimer := none, pendingGain := none, queue := [], resets := []
          polls := cfg.poll.map fun e =>
            { entry := e, countdown := if e.enable then e.period else 0, due := false, slot := {} } }
      ∧ (∀ (i : Nat) (c : Cell), s.overlay.cells[i]? = some c →
          t.overlay.cells[i]? = some (if c.layer = 3 ∧ inStampField cfg i = false then {} else c))
      ∧ t.overlay = { s.overlay with
          cells := t.overlay.cells, blinkPeriod := cfg.blinkPeriod, blinkCounter := 0, scrollSpeed := cfg.scrollSpeed
          markAttr := cfg.markAttr, flashLen := cfg.markFlash
          pan := if s.cfg.scale = cfg.scale then s.overlay.pan else 0 }

/-- The end of region preparation gives one whole next state: lap 3 in every event entry and read index 0 where the
list geometry changed, VOID in the header of every store not kept, with its hold clear where the ring geometry
changed, the status record, then RUNNING. The timers start, playout begins from the last sequence, the lamp unit sets
its ceiling (TEMP_STALE with no entry), the gain is handed and the head bus looks for work, and the first frame is
planned and waits, is deferred or is triggered. Model's choices: the moment of the end is an operand (log entry 2),
the order of the preparation writes (log entry 48), the hold cleared at a changed geometry (log entry 18), LOADING as
the part state in this record (log entry 17), and the order of the blocks at the entry (log entry 9). -/
def Obligations.RegionPreparationEntersRunning : Prop :=
  ∀ (m : Nat) (s : State) (l : Loading),
    s.part = .loading → s.loading = some l → l.preparing = true → BusReachable s →
    RegionsOk { s with list := { s.list with evIndex := if l.listChanged then 0 else s.list.evIndex } } →
    let now := max s.now m
    let lists := if l.listChanged then
        { s.list with reqIndex := 0, reqLap := 0, evIndex := 0, evLap := 0, listState := .active } else s.list
    let kept := fun e : RingEntry => !l.ringChanged && e.hold && e.state == .complete
    let ring := s.ring.map fun e => if kept e then e else { e with state := .void, hold := false }
    let laps := if l.listChanged then
        (List.range s.cfg.eventCount).map (fun i => Act.store (s.cfg.eventBase + 48 * i) [3])
        ++ [.store (s.areaBase + 0x280) (le32 0)] else []
    let voids := ((List.range s.cfg.stores).filter fun k => !kept (storeAt s k)).map fun k =>
      Act.store (storeBase s.cfg k) (if l.ringChanged then [0, 0] else [0])
    let record := statusRecord .loading { s with list := lists, ring := ring }
    let absent := !s.lamp.tempPresent && !s.lamp.stale
    let lamp := { s.lamp with wantedL := s.exposure.planL, dutyT := 1, dutyCap := 1, stale := s.lamp.stale || absent }
    let lit := lampUpdate .running s.cfg.stillLevel { lamp with ceiling := thermalCeiling s.cfg lamp }
    let writes := laps ++ voids ++ [.store (s.areaBase + 0x100) record]
      ++ (if absent then [.event (Event.tempStale .noEntry s.lamp.tempAge)] else []) ++ events lit.2
    let entered := { s with
      now := now, part := .running, loading := none, ring := ring, chainage := s.chainage.setNotRunning false
      list := { lists with pollTimer := if s.cfg.pollMs = 0 then none else some (now + s.cfg.pollMs * 1000) }
      capture := { s.capture with selPtr := none }
      link := { s.link with silence := some (now + s.cfg.silenceMs * 1000) }
      playout := { s.playout with
        timer := some (now + outputPeriod s.cfg), shown := none, consec := 0, stallOpen := false
        lastShown := s.capture.seq } }
    outputPeriod s.cfg = 1000000 / s.cfg.cadence
    ∧ exec (.regionPreparation m) s = .next (nextFrame (served { writes.foldl act entered with
        lamp := lit.1, bus := { s.bus with pendingGain := some s.exposure.planG }
        exposure := { s.exposure with gws := .queued, handedGain := some s.exposure.planG } }))

/-- HALT in RUNNING: no new work is left anywhere; waiting transfers, still orders and host messages end, each
answered ABORTED in its own slot (a MARK or STOP order with STILL_MISSED), a queued gain update is withdrawn, and the
lamps are updated; the part is HALTED at once when nothing is in flight, with the lamps at standby and no playout pin,
else HALTING with the ring as it was. Model's choices: an update queued behind the gain write on the bus is withdrawn
too (log entry 30), and the order of the units at HALT (log entry 38). -/
def Obligations.HaltEndsWaitingWork : Prop :=
  ∀ s : State, s.part = .running → RegionsOk s →
    let ended := (waitingTransfers s.bus).map (·.slot) ++ s.still.orders.filterMap (·.origin.slot?)
      ++ s.link.queue.filterMap (·.host)
    (∀ a ∈ ended, a + 64 ≤ 2 ^ 32) →
    let first := lampUpdate .halting s.cfg.stillLevel s.lamp
    let second := haltedLamp { s with lamp := first.1 }
    let aborts := (waitingTransfers s.bus).map (fun h => Act.answer h.slot 9 0 0)
      ++ s.still.orders.map (fun o => lostOrder o.origin 9 0 5 0xFF o.frameSeq)
      ++ (s.link.queue.filterMap (·.host)).map fun a => Act.answer a 9 0 0
    let e := s.exposure
    ∃ t, exec .halt s = .next t
      ∧ (∀ u : State, inFlight u = true ↔ u.list.scanning = true ∨ u.list.handed.isSome = true
          ∨ u.capture.trig ∈ [.exposing, .readout] ∨ u.still.copy.isSome = true ∨ u.bus.inHand.isSome = true
          ∨ u.bus.state = .recovery ∨ u.link.sending.isSome = true)
      ∧ (inFlight t = true → t.part = .halting) ∧ (inFlight t = false → t.part = .halted)
      ∧ (s.capture.trig = .waiting ∨ s.capture.trig = .deferred →
          t.capture.trig = .idle ∧ t.capture.plan = none ∧ t.capture.deferralOpen = false)
      ∧ (s.capture.trig = .exposing ∨ s.capture.trig = .readout ∨ s.capture.trig = .idle → t.capture = s.capture)
      ∧ t.still = { s.still with orders := [] } ∧ t.bus.pendingGain = none ∧ waitingTransfers t.bus = []
      ∧ t.bus.inHand = s.bus.inHand ∧ t.bus.state = s.bus.state ∧ t.bus.polls = s.bus.polls
      ∧ t.link = { s.link with queue := s.link.queue.filter fun q => q.host.isNone }
      ∧ t.chainage = s.chainage.setNotRunning true ∧ holdOut t = true
      ∧ (∀ a ∈ ended, (∀ b ∈ ended, b = a ∨ b + 16 ≤ a ∨ a + 16 ≤ b) → Apart (slotHead a) (eventList s) →
          Memory.read t.mem a = 3 ∧ Memory.read t.mem (a + 3) = 9)
      ∧ SameOutside (eventList s :: ended.map slotHead) s t
      ∧ t.lamp = (if inFlight t then first.1 else second.1) ∧ t.ring = (if inFlight t then s.ring else unpinned s.ring)
      ∧ Writes (events first.2 ++ aborts ++ if inFlight t then [] else events second.2)
          { s with list := { s.list with pollTimer := none, scanning := s.list.scanning && s.list.handed.isSome } } t
      ∧ t.exposure = (match e.gws with
          | .idle => e
          | .queued => { e with gws := .idle, handedGain := none }
          | .writing => { e with handedGain := some e.busGain, behind := false })
      ∧ t.list = { s.list with
          pollTimer := none, scanning := s.list.scanning && s.list.handed.isSome
          evIndex := t.list.evIndex, evLap := t.list.evLap, missed := t.list.missed }
      ∧ t = { s with
              part := t.part, mem := t.mem, attention := t.attention, list := t.list, capture := t.capture
              ring := t.ring, playout := { s.playout with shown := if inFlight t then s.playout.shown else none }
              lamp := t.lamp, exposure := t.exposure, chainage := t.chainage, link := t.link, bus := t.bus
              still := t.still }

/-- Either reset ends all work without a memory access: every block at its reset value, but that soft reset keeps what
the chainage unit and the overlay unit keep. The board's memory, and the count of rejects (log entry 16), stay.
Model's choices: soft reset keeps the count of rejects, where two rules differ (log entry 16); power-on reset keeps
board memory and the moment (log entry 23). -/
def Obligations.ResetsReturnBlocks : Prop :=
  ∀ s : State,
    let off := { State.reset with pending := s.pending, now := s.now, mem := s.mem, errors := s.errors }
    exec .powerOnReset s = .next off
    ∧ ∃ t, exec .softReset s = .next t
      ∧ t = { off with chainage := t.chainage, overlay := t.overlay }
      ∧ t.chainage = { s.chainage with
          run := .stopped, linkLossHold := false
          reasons := { s.chainage.reasons with notRunning := true, host := false, surface := false } }
      ∧ t.overlay.cells = s.overlay.cells ∧ t.overlay.palette = s.overlay.palette
      ∧ t.overlay.glyphs = s.overlay.glyphs ∧ t.overlay.key = s.overlay.key ∧ t.overlay.care = s.overlay.care
      ∧ t.overlay.layerEnable = s.overlay.layerEnable ∧ t.overlay.fifo = [] ∧ t.overlay.pan = 0
      ∧ t.overlay.edits = [] ∧ t.overlay.flash = 0 ∧ t.overlay.blinkCounter = 0

/-- The expiry of the list poll timer reloads it and is a scan event. LIST_RESYNC in RUNNING or HALTED: cursor 0, lap
0, list state ACTIVE; with a slot in hand, after that slot; the event write cursor and the requests taken stay.
Model's choices: the timer is the moment of its expiry (log entry 2), and where a resync falls within a scan (log
entry 25). -/
def Obligations.ScanEventsAndResync : Prop :=
  ∀ s : State,
    (s.list.pollTimer = none → exec .listPollTimerExpiry s = .next s)
    ∧ (∀ e, s.list.pollTimer = some e →
      ∃ t, exec .listPollTimerExpiry s = .next t
        ∧ t = { s with
                now := max s.now e
                list := { s.list with pollTimer := some (e + s.cfg.pollMs * 1000), scanning := t.list.scanning } }
        ∧ (s.part = .running → s.list.listState = .active → t.list.scanning = true)
        ∧ (s.part ≠ .running ∨ s.list.listState = .faulted → t.list.scanning = s.list.scanning))
    ∧ ((s.part = .running ∨ s.part = .halted) → s.list.handed = none →
      exec .listResync s = .next { s with list := { s.list with
        reqIndex := 0, reqLap := 0, listState := .active, scanning := false, resyncWaiting := false } })
    ∧ (∀ r : Request, (s.part = .running ∨ s.part = .halted) → s.list.handed = some r →
      exec .listResync s = .next { s with list := { s.list with resyncWaiting := true } }
      ∧ (s.part = .running → r.kind = 10 →
          exec .overlayWrite { s with list := { s.list with resyncWaiting := true } } = .next
            { s with
              overlay := { s.overlay with edits := s.overlay.edits ++ [r] }
              list := { s.list with
                handed := none, reqIndex := 0, reqLap := 0, listState := .active, scanning := false
                resyncWaiting := false } }))

/-- A memory access ends with an error response in LOADING, RUNNING, HALTING or HALTED: FAULTED, FAULT set, every
memory access stopped, no completion and no event. The lamps go to their level of FAULTED, a transaction that waits
for the bus ends with the counts of its owner, and from LOADING with values in force the output timer and the silence
timer run. In OFF and FAULTED the part makes no access. So it is where the access that fails is one of a load, of a
scan, of an event, of an edit's buffer or of an answer, which leaves its request unanswered. At the event of a stall
that opens, the period that begins shows the fill picture without overlay, whatever was on the port before. Model's
choices: queued host transfers stay in the queue (log entry 20), the picture under way (log entry 27), the deferral
episode (log entry 28), the silence timer (log entry 15), which bytes of a record are read (log entries 34 and 46),
the unit's own fields, which change before the event (log entry 59), and CAPTURE_STALL as the name of a part of an
output frame start (log entry 3). -/
def Obligations.MemoryErrorEntersFaulted : Prop :=
  ∀ (m : Nat) (s : State),
    ((s.part = .off ∨ s.part = .faulted) → exec (.memoryError m) s = .next s)
    ∧ (s.part ≠ .off → s.part ≠ .faulted →
      ∃ t, exec (.memoryError m) s = .next t ∧ t.part = .faulted ∧ t.loading = none
        ∧ t.attention = s.attention ||| attFault ∧ t.chainage = s.chainage.setNotRunning true ∧ holdOut t = true
        ∧ t.list = { s.list with scanning := false, pollTimer := none, handed := none, resyncWaiting := false }
        ∧ t.capture = { s.capture with trig := .idle, plan := none, deadline := none, frame := none }
        ∧ t.still = { s.still with copy := none }
        ∧ t.ring = unpinned s.ring
        ∧ t.link = { s.link with
            queue := s.link.queue.filter fun q => q.host.isNone
            silence := if s.loading.isSome ∧ s.cfgTaken = true then
                (if s.link.state = .lost then none else some (max s.now m + s.cfg.silenceMs * 1000))
              else s.link.silence }
        ∧ t.playout = { s.playout with
            shown := none, video := if s.playout.video = .none then .none else .fill false
            timer := if s.loading.isSome ∧ s.cfgTaken = true then some (max s.now m + outputPeriod s.cfg)
              else s.playout.timer }
        ∧ (let stood := (lampUpdate .faulted s.cfg.stillLevel { s.lamp with boost := false, strobe := false }).1
            let idle := { s.bus with state := .idle, busyTimer := none, inHand := none }
            (s.bus.state ≠ .waitFree → t.bus = s.bus ∧ t.exposure = s.exposure ∧ t.lamp = stood)
            ∧ (s.bus.state = .waitFree → s.bus.inHand = none → t.bus = idle ∧ t.exposure = s.exposure ∧ t.lamp = stood)
            ∧ ∀ x, s.bus.state = .waitFree → s.bus.inHand = some x →
              (∀ h, x.owner = .host h →
                t.bus = { idle with queue := s.bus.queue.tail } ∧ t.exposure = s.exposure ∧ t.lamp = stood)
              ∧ (∀ v, x.owner = .gain v → t.bus = idle ∧ t.exposure = writeFailed s.exposure ∧ t.lamp = stood)
              ∧ (∀ j, x.owner = .poll j true → t.bus = idle ∧ t.exposure = s.exposure ∧ t.lamp = stood)
              ∧ ∀ j p, x.owner = .poll j false → s.bus.polls[j]? = some p → t.exposure = s.exposure
                ∧ (let slot := { p.slot with failures := min 255 (p.slot.failures + 1) }
                   t.bus = { idle with polls := s.bus.polls.set j { p with slot := slot } })
                ∧ t.lamp = if p.entry.role = .temperature then (tempMissed .faulted s.cfg stood).1 else stood)
        ∧ t = { s with
                now := max s.now m, part := .faulted, loading := none, attention := t.attention, list := t.list
                capture := t.capture, ring := t.ring, lamp := t.lamp, exposure := t.exposure, chainage := t.chainage
                link := t.link, bus := t.bus, still := t.still
                playout := t.playout })
    ∧ (∀ l : Loading, s.part = .loading → s.loading = some l → l.preparing = false →
        (∃ i < 256, configAssigns i = true ∧ Fails s (s.workBase.toNat + i)) →
        exec (.configurationLoad m) s = exec (.memoryError m) s)
    ∧ (scanReady s = true →
        let a := s.cfg.listBase + 64 * s.list.reqIndex
        let kind := (Memory.read s.mem (a + 2)).toNat
        ((∃ i < 2, Fails s (a + i))
          ∨ (Memory.read s.mem a = 1 ∧ (Memory.read s.mem (a + 1)).toNat = s.list.reqLap ∧ s.list.reqLap < 4
              ∧ a ∉ heldSlots s ∧ ((∃ i < 8, i ≠ 3 ∧ Fails s (a + i))
                ∨ ∃ i < 48, usesArgument kind i = true ∧ Fails s (a + 16 + i)))) →
        exec (.scanSlot m) s = exec (.memoryError m) s)
    ∧ (∀ e : Event, Working s → (∃ i < 4, Fails s (s.areaBase + 0x280 + i)) →
        exec (.memoryError 0) s = .next (emit e s))
    ∧ (s.part.lit = true → candidates s [] = [] → s.playout.stallOpen = false →
        min 255 (s.playout.consec + 1) = s.cfg.stallLimit → (∃ i < 4, Fails s (s.areaBase + 0x280 + i)) →
        let opened := { s with playout := { s.playout with
          underruns := s.playout.underruns + 1, consec := s.cfg.stallLimit, stallOpen := true, video := .fill true } }
        ∃ t, exec .captureStall s = .next t ∧ blockFrame .playout s = t ∧ exec (.memoryError 0) opened = .next t
          ∧ t.part = .faulted ∧ t.playout.video = .fill false ∧ t.playout.shown = none
          ∧ t.playout.stallLatch = s.playout.stallLatch)
    ∧ (∀ (e : Request) (rest : List Request) (a n : Nat), Working s → s.overlay.edits = e :: rest →
        editBuffer e = some (a, n) → (∃ i < n, Fails s (a + i)) →
        exec (.memoryError 0) s = .next (blockFrame .overlay s))
    ∧ (∀ (k : Nat) (c : Instr) (r : Request), (k, c) ∈ [(4, .chainageCalibrate), (6, .driveHold), (17, .latchClear)] →
        s.part = .running → s.list.handed = some r → r.kind = k →
        (∃ i ∈ [0, 3, 8, 9, 10, 11, 12, 13, 14, 15], Fails s (r.slot + i)) →
        ∃ t, exec c s = .next t ∧ t.part = .faulted ∧ t.attention = s.attention ||| attFault
          ∧ Memory.read t.mem r.slot = Memory.read s.mem r.slot ∧ SameOutside [slotHead r.slot] s t
          ∧ t.list.handed = none ∧ t.list.evIndex = s.list.evIndex)

/-! ### Output frames and the status record -/

/-- An output frame start is its count and reload, then the part of every block in the order given, then the status
record, which shows the state this leaves, but the head bus and the exposure unit as they were before the start with
the slot ages increased, then the scan event. The lamp unit counts the age of the temperature, with the stale
condition at 101; the head bus unit counts the slot ages and the countdowns and takes what is due; the link unit
counts its cadence below K. The overlay unit applies and answers the pending edits in their order, moves the banner,
writes the stamp cells, and counts the blink and the flash. Model's choices: the timer is the moment of its expiry
(log entry 2), the order of the blocks is an operand over which the statement ranges (log entry 8), HEAD_STATUS and
TEMP_STALE name parts of an output frame start (log entry 3), an edit leaves the list before its completion (log entry
58), TEMP_STALE is written before the lamp update's event (log entry 9), and which values of the other blocks the
record shows (log entry 44). -/
def Obligations.FrameStartCountsAndReports : Prop :=
  (∀ (order : List FrameBlock) (e : Nat) (s : State), s.playout.timer = some e → s.loading = none →
    Memory.wf s.mem = true →
    let aged := s.bus.polls.map fun p => { p with slot := { p.slot with age := min 65535 (p.slot.age + 1) } }
    let s0 := { s with
      now := max s.now e
      playout := { s.playout with timer := some (e + outputPeriod s.cfg), frames := s.playout.frames + 1 } }
    let worked := (blockOrder order).foldl (fun u b => blockFrame b u) s0
    (Working worked → RegionsOk worked →
      let record := statusRecord worked.part { worked with exposure := s.exposure, bus := { s.bus with polls := aged } }
      exec (.outputFrameStart order) s = .next { worked with
        mem := storeBytes worked.mem (worked.areaBase + 0x100) record
        list := { worked.list with
          scanning := worked.list.scanning || decide (worked.part = .running ∧ worked.list.listState = .active) } })
    ∧ (worked.part = .faulted → exec (.outputFrameStart order) s = .next worked)
    ∧ ∃ t, exec (.outputFrameStart order) s = .next t ∧ t.playout.frames = s.playout.frames + 1
      ∧ t.playout.timer = some (e + outputPeriod s.cfg) ∧ t.now = max s.now e
      ∧ (Working t → Memory.readList t.mem (t.areaBase + 0x100) 256 = statusRecord t.part
          { t with exposure := s.exposure, bus := { s.bus with polls := aged } })
      ∧ (t.part = .running → t.list.listState = .active → t.list.scanning = true)
      ∧ t.cfg = s.cfg ∧ t.areaBase = s.areaBase ∧ t.workBase = s.workBase ∧ t.pending = s.pending
      ∧ t.refusalCode = s.refusalCode ∧ t.refusalOffset = s.refusalOffset)
  ∧ (∀ order : List FrameBlock, order.Nodup → (blockOrder order).Nodup ∧ (∀ b, b ∈ blockOrder order)
      ∧ ∃ rest, blockOrder order = order ++ rest)
  ∧ (∀ s : State,
      let aged := { s.lamp with tempAge := min 65535 (s.lamp.tempAge + 1) }
      let lamp := if aged.tempAge = 101 then staled s.part s.cfg .age aged else (aged, [])
      let polls := s.bus.polls.map fun p => { p with
        slot := { p.slot with age := min 65535 (p.slot.age + 1) }
        countdown := if s.part.lit && p.entry.enable then
            (if p.countdown ≤ 1 then p.entry.period else p.countdown - 1) else p.countdown
        due := p.due || (s.part.lit && p.entry.enable && decide (p.countdown ≤ 1)) }
      (Working s ∧ RegionsOk s ∨ s.part = .faulted →
        blockFrame .lamp s = { (events lamp.2).foldl act s with lamp := lamp.1 }
        ∧ (BusReachable s → blockFrame .headBus s = served { s with bus := { s.bus with polls := polls } }))
      ∧ (linkActive s = true → s.cfg.cadenceK ≠ 0 → s.link.cadence + 1 < s.cfg.cadenceK →
          blockFrame .link s = { s with link := { s.link with cadence := s.link.cadence + 1 } })
      ∧ (linkActive s = true → s.cfg.cadenceK ≠ 0 → s.cfg.cadenceK ≤ s.link.cadence + 1 →
          exec .headStatus s = .next (blockFrame .link s))
      ∧ (linkActive s = false ∨ s.cfg.cadenceK = 0 → blockFrame .link s = s))
  ∧ (∀ s : State, s.part ∈ [.off, .loading, .faulted] → blockFrame .overlay s = s)
  ∧ ∀ s : State, Working s → RegionsOk s → (∀ e ∈ s.overlay.edits, e.slot + 64 ≤ 2 ^ 32) →
    (∀ e ∈ s.overlay.edits, ∀ b, editBuffer e = some b → b.1 + b.2 ≤ 2 ^ 32) →
    let edit := fun (u : State) (e : Request) =>
      let r := applyEdit s.cfg e ((editBuffer e).map fun b => Memory.readList u.mem b.1 b.2) u.overlay
      answered e.slot r.code r.w0 r.w1 { u with overlay := r.overlay }
    let done := s.overlay.edits.foldl edit s
    let o := done.overlay
    let moves := s.cfg.bannerEnable && decide (o.fifo ≠ [])
    let pan := o.pan + if moves then o.scrollSpeed else 0
    let leaves := moves && decide (16 * s.cfg.scale ≤ pan)
    let fifo := if leaves then o.fifo.tail else o.fifo
    let text := stampText s.chainage.x (decide (s.chainage.run = .stopped) || s.chainage.held) s.chainage.saturated
    let stamp := fun j : Nat => if s.cfg.stampEnable then
        ({ ch := text.getD j 0x20, attr := if 0 < o.flash then o.markAttr else s.cfg.stampAttr, blink := false
           layer := 3 } : Cell)
      else { ch := 0x20, attr := o.key ++ o.key, blink := false, layer := 3 }
    let t := blockFrame .overlay s
    t = { s with mem := done.mem, attention := done.attention, overlay := t.overlay }
      ∧ (∀ (i : Nat) (c : Cell), o.cells[i]? = some c → t.overlay.cells[i]? = some (if inStampField s.cfg i then
          stamp (i - (s.cfg.stampRow * 64 + s.cfg.stampCol)) else c))
      ∧ t.overlay = { o with
          edits := [], cells := t.overlay.cells, fifo := fifo
          bannerLine := fifo.take (min 64 (s.cfg.width / (16 * s.cfg.scale)) + 1)
          pan := if leaves then (if fifo = [] then 0 else pan - 16 * s.cfg.scale) else pan
          blinkCounter := if s.overlay.edits.any fun e => decide (e.kind = 11 ∧ u8 e.args 0 = 2) then o.blinkCounter
            else if o.blinkPeriod = 0 then 0 else (o.blinkCounter + 1) % o.blinkPeriod
          flash := o.flash - 1 }

/-- Part, list, link, bus, trigger, exposure, gain and run states and the hold reasons have the codes of chapter 12.
The status record is 256 bytes long, begins and ends with the output frame number, and every field of section 12.5
stands at its offset with the value its owner holds; unassigned bytes are 0. Model's choices: a field with nothing to
show is 0, where the spec gives no value (log entry 55), and a set flag byte is 1 (log entry 62). -/
def Obligations.StatusRecordLayout : Prop :=
  let bit := fun b : Bool => if b then 1 else 0
  (∀ x : PartState, x.code = match x with
    | .off => 0 | .loading => 1 | .running => 2 | .halting => 3 | .halted => 4 | .faulted => 5)
  ∧ (∀ x : ListState, x.code = match x with | .active => 0 | .faulted => 1)
  ∧ (∀ x : LinkState, x.code = match x with | .down => 0 | .up => 1 | .lost => 2)
  ∧ (∀ x : BusState, x.code = match x with
    | .idle => 0 | .waitFree => 1 | .active => 2 | .recovery => 3 | .fault => 4)
  ∧ (∀ x : TrigState, x.code = match x with
    | .idle => 0 | .waiting => 1 | .deferred => 2 | .exposing => 3 | .readout => 4)
  ∧ (∀ x : ExpMode, x.code = match x with | .auto => 0 | .manual => 1)
  ∧ (∀ x : GainState, x.code = match x with | .idle => 0 | .queued => 1 | .writing => 2)
  ∧ (∀ x : RunState, x.code = match x with | .stopped => 0 | .running => 1)
  ∧ (∀ x : HoldReasons, x.code = bit x.notRunning + 2 * bit x.stopTarget + 4 * bit x.linkLost + 8 * bit x.surface
      + 16 * bit x.host)
  ∧ ∀ (p : PartState) (s : State),
    let r := statusRecord p s
    r.length = 256 ∧ r.take 4 = le32 s.playout.frames.toNat ∧ r.drop 252 = le32 s.playout.frames.toNat
      ∧ slice r 0x04 4 = [byte p.code, byte s.list.listState.code, byte s.refusalCode, byte s.link.state.code]
      ∧ slice r 0x08 2 = le16 s.refusalOffset
      ∧ slice r 0x0A 2 = [byte s.bus.state.code, byte s.bus.queue.length]
      ∧ slice r 0x0C 2 = le16 s.list.reqIndex ∧ slice r 0x0E 2 = [byte s.list.reqLap, byte s.list.evLap]
      ∧ slice r 0x10 2 = le16 s.list.evIndex
      ∧ slice r 0x12 2 = [flagByte s.bus.pendingGain.isSome, byte s.chainage.reasons.code]
      ∧ u32 r 0x14 = s.list.missed.toNat
      ∧ slice r 0x18 3 = [byte s.capture.trig.code, flagByte s.capture.los, byte s.capture.abandons]
      ∧ r.getD 0x1B 0 = byte ((List.range s.cfg.stores).filter fun k => (storeAt s k).hold).length
      ∧ u32 r 0x1C = s.capture.seq.toNat ∧ u32 r 0x20 = s.capture.completed.toNat
      ∧ u32 r 0x24 = s.capture.abandoned.toNat
      ∧ slice r 0x28 4 = le32 (match s.capture.plan with | none => 0 | some q => q.tCap)
      ∧ slice r 0x2C 4 = [byte (s.playout.shown.getD 0xFF), byte s.playout.consec, flagByte s.playout.stallLatch,
          flagByte s.playout.stallOpen]
      ∧ u32 r 0x30 = s.playout.lastShown.toNat ∧ u32 r 0x34 = s.playout.underruns.toNat
      ∧ u32 r 0x38 = s.playout.notShown.toNat
      ∧ (∀ i < 6, slice r (0x3C + 2 * i) 2 = le16 (s.lamp.channels.getD i {}).applied)
      ∧ slice r 0x48 2 = le16 s.lamp.budget ∧ slice r 0x4A 2 = le16 s.lamp.total ∧ slice r 0x4C 2 = le16 s.lamp.ceiling
      ∧ slice r 0x4E 2 = le16i (s.lamp.temp.getD (-32768)) ∧ slice r 0x50 2 = le16 s.lamp.tempAge
      ∧ slice r 0x52 2 = [byte (bit s.lamp.stale + 2 * bit s.lamp.cut + 4 * bit s.lamp.clamp), byte s.exposure.mode.code]
      ∧ slice r 0x54 2 = le16 s.exposure.planL ∧ slice r 0x56 2 = le16 s.exposure.lCap
      ∧ slice r 0x58 4 = le32 s.exposure.planT ∧ slice r 0x5C 2 = le16 s.exposure.planG
      ∧ slice r 0x5E 2 = le16 s.exposure.gainInEffect ∧ slice r 0x60 2 = le16 (s.exposure.handedGain.getD 0)
      ∧ slice r 0x62 3 = [byte s.exposure.gws.code, byte (bit s.exposure.retry + 2 * bit s.exposure.last.isSome),
          byte s.exposure.failures]
      ∧ r.getD 0x65 0 = byte (match s.exposure.last with | none => 0 | some q => q.mean)
      ∧ slice r 0x66 2 = [byte s.chainage.run.code,
          byte (bit s.chainage.held + 2 * bit s.chainage.saturated + 4 * bit s.chainage.originValid
            + 8 * bit s.chainage.fired + 16 * bit s.chainage.nextMark.isSome + 32 * bit s.chainage.stopTarget.isSome)]
      ∧ u32 r 0x68 = (match s.exposure.last with | none => 0 | some q => q.seq.toNat)
      ∧ slice r 0x6C 4 = le32i s.chainage.x ∧ slice r 0x70 4 = le32i (s.chainage.nextMark.getD 0)
      ∧ slice r 0x74 4 = le32i (s.chainage.stopTarget.getD 0)
      ∧ slice r 0x78 8 = [byte s.chainage.rejects, 0, 0, 0, 0, 0, 0, 0]
      ∧ (∀ j < 8, let q := (s.bus.polls.getD j {}).slot
          slice r (0x80 + 8 * j) 4 = [flagByte q.held, byte q.failures] ++ le16 q.age
          ∧ slice r (0x84 + 8 * j) 4 = (q.bytes ++ [0, 0, 0, 0]).take 4)
      ∧ slice r 0xC0 60 = List.replicate 60 0

/-- The playout unit shows, of the COMPLETE stores fresher than the last shown sequence, the one of greatest distance,
pins it and drops the pin before. With none it counts an underrun: it repeats the picture, or turns to fill in FILL,
in LOS or in a stall, and the underrun that reaches the stall limit (CAPTURE_STALL) opens the episode and sets the
latch. A pin that is released may end a deferral of the capture unit; a repeat releases none. Frame-valid and
line-valid are high across the picture and its lines. Every byte at the port within the picture is that of the store
or of the fill, under the overlay's banner row, cells, key and blend. A glyph's bits are those of its 48 bytes, and
the stamp text is the ten characters of R73. Model's choices: CAPTURE_STALL names the underrun that reaches the stall
limit, a part of an output frame start (log entry 3); the release of the pin is acted on after playout's own changes
(log entry 49), the not-shown count wraps (log entry 52) and is counted by R45's distances alone (log entry 57),
CAPTURE_RESUMED follows the counts (log entry 53), bit n of the layer enable mask is layer n (log entry 37), LOS set
is 1 in the payload of CAPTURE_STALL (log entry 62), and the patterns of the fixed glyphs are free (log entry 12). -/
def Obligations.PlayoutShowsFreshestOrStalls : Prop :=
  (∀ s : State, s.part.lit = true → RegionsOk s →
    (∀ k ∈ candidates s [],
      (∀ j ∈ candidates s [], j ≠ k → distance s (storeAt s j).seq < distance s (storeAt s k).seq) →
      let t := blockFrame .playout s
      let said := if s.playout.stallOpen then
          [Act.event (Event.captureResumed (storeAt s k).seq s.playout.consec)] else []
      let shown := { said.foldl act s with
        ring := (unpinned s.ring).set k { storeAt s k with playPin := true }
        playout := { s.playout with
          shown := some k, lastShown := (storeAt s k).seq, consec := 0, stallOpen := false, video := .store k
          notShown := s.playout.notShown + BitVec.ofNat 32 (distance s (storeAt s k).seq - 1) } }
      t = (if s.playout.shown.isSome then retried shown else shown)
        ∧ (storeAt s k).state = .complete ∧ fresher s (storeAt s k).seq = true
        ∧ t.playout = shown.playout ∧ (s.playout.stallOpen = true → Reported 10 t))
    ∧ (candidates s [] = [] →
      let counted := { s.playout with
        underruns := s.playout.underruns + 1, consec := min 255 (s.playout.consec + 1) }
      let filled := fun (u : State) (stalls : Bool) =>
        let f := { u with
          playout := { counted with
            stallOpen := counted.stallOpen || stalls, stallLatch := counted.stallLatch || stalls
            shown := none, video := .fill true }
          ring := if s.playout.shown.isSome then unpinned s.ring else s.ring }
        if s.playout.shown.isSome then retried f else f
      (s.playout.stallOpen = false → counted.consec = s.cfg.stallLimit →
        let t := filled (act s (.event (Event.captureStall s.playout.lastShown s.cfg.stallLimit s.capture.los))) true
        exec .captureStall s = .next t ∧ blockFrame .playout s = t ∧ Reported 9 t
        ∧ t.playout = { s.playout with
            underruns := s.playout.underruns + 1, consec := s.cfg.stallLimit, stallOpen := true, stallLatch := true
            shown := none, video := .fill true }
        ∧ SameOutside (eventList s :: if s.capture.trig = .deferred then
            (List.range s.cfg.stores).map (storeHeader s) else []) s t
        ∧ SameListButEvent s t)
      ∧ (s.playout.stallOpen = true ∨ counted.consec ≠ s.cfg.stallLimit →
        let fills := s.playout.stallOpen || s.capture.los || s.cfg.underrunFill
        (fills = true → blockFrame .playout s = filled s false)
        ∧ (fills = false → blockFrame .playout s = { s with
            playout := { counted with
              video := match s.playout.shown with | none => .fill true | some k => .store k } }))))
  ∧ (∀ s : State,
    (s.part = .halted → blockFrame .playout s = { s with playout := { s.playout with video := .fill true } })
    ∧ (s.part = .faulted → blockFrame .playout s = { s with playout := { s.playout with video := .fill false } })
    ∧ (s.part = .off ∨ s.part = .loading → blockFrame .playout s = s))
  ∧ (∀ (s : State) (x y b : Nat),
    let c := if b = 1 then Component.luma else if x % 2 = 0 then .cb else .cr
    let fill := match c with | .luma => s.cfg.fillY | .cb => s.cfg.fillCb | .cr => s.cfg.fillCr
    (s.playout.video = .none ∨ s.cfg.width ≤ x ∨ s.cfg.height ≤ y ∨ 2 ≤ b → videoByte s x y b = none)
    ∧ (x < s.cfg.width → y < s.cfg.height → b < 2 →
        (s.playout.video = .fill false → videoByte s x y b = some fill)
        ∧ (s.playout.video = .fill true → videoByte s x y b = some (composeByte s.cfg s.overlay x y c fill))
        ∧ ∀ k, s.playout.video = .store k → videoByte s x y b = some (composeByte s.cfg s.overlay x y c
            (Memory.read s.mem (storeBase s.cfg k + 64 + (y * s.cfg.width + x) * 2 + b))))
    ∧ (frameValid s y = true ↔ s.playout.video ≠ .none ∧ y < s.cfg.height)
    ∧ (lineValid s x y = true ↔ s.playout.video ≠ .none ∧ y < s.cfg.height ∧ x < s.cfg.width))
  ∧ (∀ (glyphs others : List Byte) (code row col : Nat), row < 24 → col < 16 →
      (0xE0 ≤ code → code ≤ 0xFF → glyphBit glyphs code row col
        = (glyphs.getD (48 * (code - 0xE0) + 2 * row + col / 8) 0).getLsbD (7 - col % 8))
      ∧ (code ≤ 0x20 ∨ code = 0x7F → glyphBit glyphs code row col = false)
      ∧ (code = 0xDB → glyphBit glyphs code row col = true)
      ∧ (code < 0xE0 → glyphBit glyphs code row col = glyphBit others code row col))
  ∧ (∀ (x : Int) (held saturated : Bool), -999994 ≤ x → x ≤ 9999994 →
      let text := stampText x held saturated
      ∃ c : Int, 2 * |10 * c - x| ≤ 10 ∧ (2 * |10 * c - x| = 10 → |x| < |10 * c|) ∧ text.length = 10
        ∧ text.getD 0 0 = (if held then 0x48 else if saturated && x == 9999994 then 0x3E
            else if saturated && x == -999994 then 0x3C else 0x20)
        ∧ (let digit := fun n : Nat => byte (0x30 + c.natAbs / n % 10)
           text.getD 9 0 = 0x6D ∧ text.getD 8 0 = digit 1 ∧ text.getD 7 0 = digit 10 ∧ text.getD 6 0 = 0x2E
            ∧ text.getD 5 0 = digit 100
            ∧ ∀ i < 4, text.getD (4 - i) 0 = if 10 ^ (3 + i) ≤ c.natAbs then digit (10 ^ (3 + i))
                else if c < 0 ∧ (i = 0 ∨ 10 ^ (2 + i) ≤ c.natAbs) then 0x2D else 0x20))
  ∧ ∀ (cfg : Cfg) (o : Overlay) (x y : Nat) (c : Component) (video : Byte),
    let cellW := 16 * cfg.scale
    let cellH := 24 * cfg.scale
    let row := y / cellH
    let col := x / cellW
    let glyphRow := y % cellH / cfg.scale
    let under := fun p : BitVec 4 =>
      let e := o.palette.getD p.toNat {}
      let ov := match c with | .luma => e.y | .cb => e.cb | .cr => e.cr
      if (p ^^^ o.key) &&& o.care = 0 then video
      else byte ((e.opacity * ov.toNat + (16 - e.opacity) * video.toNat + 8) / 16)
    let pick := fun (ch attr : Byte) (glyphCol : Nat) =>
      if glyphBit o.glyphs ch.toNat glyphRow glyphCol then attr.extractLsb' 0 4 else attr.extractLsb' 4 4
    let cell := o.cells.getD (row * 64 + col) {}
    let q := x + o.pan
    let seen := col < min 64 (cfg.width / cellW) ∧ row < min 48 (cfg.height / cellH)
    let hidden := o.layerEnable.getLsbD cell.layer = false
      ∨ (cell.blink = true ∧ o.blinkPeriod ≠ 0 ∧ o.blinkPeriod / 2 ≤ o.blinkCounter)
    (¬ seen → composeByte cfg o x y c video = video)
    ∧ (seen → cfg.bannerEnable = true → row = cfg.bannerRow → composeByte cfg o x y c video
        = under (pick (o.bannerLine.getD (q / cellW) 0x20) cfg.bannerAttr (q % cellW / cfg.scale)))
    ∧ (seen → ¬ (cfg.bannerEnable = true ∧ row = cfg.bannerRow) → composeByte cfg o x y c video
        = if hidden then video else under (pick cell.ch cell.attr (x % cellW / cfg.scale)))

/-! ### The request list -/

/-- A scan takes a POSTED slot of the cursor's lap when its unit has room: TAKEN is written and nothing else, the
request is in hand with the argument bytes its kind uses as read, the cursor advances. An error response at a byte the
kind does not use does not matter. Without room the scan ends and the slot waits. Room is a place in the host transfer
queue, or a host place of the uplink queue; a slot is held while its request is in hand or in a unit; and the bytes a
kind uses are those section 12.3 gives it. Model's choices: the request is held in hand until its own step (log entry
4), keeps its slot address (log entry 31), and the argument bytes its kind uses are read here (log entries 34 and 46).
-/
def Obligations.ScanTakesNewRequest : Prop :=
  (∀ (kind : Nat) (s : State), unitRoom kind s = true ↔
    (kind = 13 → s.bus.queue.length < 4) ∧ (kind = 16 → (s.link.queue.filter fun q => q.host.isSome).length < 3))
  ∧ (∀ (a : Nat) (s : State), a ∈ heldSlots s ↔
      (∃ r ∈ s.list.handed, r.slot = a) ∨ (∃ r ∈ s.overlay.edits, r.slot = a) ∨ (∃ h ∈ s.bus.queue, h.slot = a)
      ∨ a ∈ s.bus.resets ∨ (∃ q ∈ s.link.queue, q.host = some a) ∨ (∃ x ∈ s.link.sending, x.msg.host = some a)
      ∨ (∃ o ∈ s.still.orders, o.origin = .snapshot a) ∨ ∃ c ∈ s.still.copy, c.origin = .snapshot a)
  ∧ (∀ kind i : Nat, usesArgument kind i = true ↔ ∃ row ∈ [(1, 0, 6), (2, 0, 1), (2, 2, 23), (2, 28, 8), (3, 0, 2),
      (4, 0, 2), (4, 4, 12), (5, 0, 12), (6, 0, 2), (7, 0, 4), (8, 0, 4), (10, 0, 46), (11, 0, 48), (12, 0, 2),
      (12, 4, 4), (13, 0, 28), (14, 0, 7), (16, 0, 2), (16, 4, 32), (17, 0, 1), (17, 4, 4)],
      kind = row.1 ∧ row.2.1 ≤ i ∧ i < row.2.1 + row.2.2)
  ∧ ∀ (m : Nat) (s : State), scanReady s = true → RegionsOk s → s.list.reqIndex < s.cfg.slots → s.list.reqLap < 4 →
    let a := s.cfg.listBase + 64 * s.list.reqIndex
    let kind := (Memory.read s.mem (a + 2)).toNat
    let args := (List.range 48).map fun i => if usesArgument kind i then Memory.read s.mem (a + 16 + i) else 0
    Memory.read s.mem a = 1 → (Memory.read s.mem (a + 1)).toNat = s.list.reqLap → a ∉ heldSlots s →
    (unitRoom kind s = false →
      exec (.scanSlot m) s = .next { s with now := max s.now m, list := { s.list with scanning := false } })
    ∧ (∀ errors : List (Nat × Nat), unitRoom kind s = true →
      (∀ r ∈ errors, ∀ i < 64, i < 8 ∧ i ≠ 3 ∨ (16 ≤ i ∧ usesArgument kind (i - 16) = true) → ¬ InRange r (a + i)) →
      exec (.scanSlot m) { s with errors := errors } = .next
        { s with
          now := max s.now m, errors := errors
          mem := Memory.write s.mem a 2
          list := { s.list with
            handed := some { slot := a, kind := kind, args := args }
            reqIndex := if s.list.reqIndex + 1 < s.cfg.slots then s.list.reqIndex + 1 else 0
            reqLap := if s.list.reqIndex + 1 < s.cfg.slots then s.list.reqLap else (s.list.reqLap + 1) % 4 } })

/-- A scan that reaches any other slot ends: without a trace at a slot not POSTED, still held by the part or posted
for the previous pass; with a list fault, LIST_FAULT and then FAULT, at one posted ahead. Model's choice: a slot is
told by its own address (log entry 31). -/
def Obligations.ScanEndsOrFaults : Prop :=
  ∀ (m : Nat) (s : State), scanReady s = true → RegionsOk s → s.list.reqIndex < s.cfg.slots → s.list.reqLap < 4 →
    let a := s.cfg.listBase + 64 * s.list.reqIndex
    let lap := (Memory.read s.mem (a + 1)).toNat
    let ended := { s with now := max s.now m, list := { s.list with scanning := false } }
    ((Memory.read s.mem a ≠ 1 ∨ a ∈ heldSlots s) → exec (.scanSlot m) s = .next ended)
    ∧ (Memory.read s.mem a = 1 → a ∉ heldSlots s → lap < 4 → (lap + 1) % 4 = s.list.reqLap →
        exec (.scanSlot m) s = .next ended)
    ∧ (Memory.read s.mem a = 1 → a ∉ heldSlots s →
        (3 < lap ∨ lap = (s.list.reqLap + 1) % 4 ∨ lap = (s.list.reqLap + 2) % 4) →
        ∃ t, exec (.scanSlot m) s = .next t ∧ t.attention.getLsbD 3 = true ∧ Reported 23 t
          ∧ Writes [.event (Event.listFault s.list.reqIndex s.list.reqLap lap), .attention attFault]
              { s with list := { s.list with listState := .faulted, scanning := false } } t
          ∧ SameOutside [eventList s] s t
          ∧ t = { s with
                  now := max s.now m, mem := t.mem, attention := t.attention
                  list := { s.list with
                    listState := .faulted, scanning := false
                    evIndex := t.list.evIndex, evLap := t.list.evLap, missed := t.list.missed } })

/-- An event is written at the cursor while the used count is below E − 1: its kind, source, length, frame number,
chainage and the 36 payload bytes, zero after the payload, the cursor's lap, EVENT, and the cursor one on; with the
list full its mask bit alone is set. In OFF and LOADING its mask bit alone is set, in FAULTED nothing changes. Each of
the 24 kinds has the code, the source unit, the payload length and the payload fields of section 12.4. The origins of
STILL_MISSED are MARK 0 and STOP 1. Model's choices: a flag that is set and a line that is high stand as 1 in a
payload (log entry 62), and the order in which an entry's fields are written (log entry 56). -/
def Obligations.EventWrittenOrMissed : Prop :=
  let flag := fun b : Bool => if b then (1 : Int) else 0
  let linkCode := fun l : LinkState => match l with | .down => (0 : Int) | .up => 1 | .lost => 2
  let resultCode := fun o : BusOutcome => match o with
    | .success => (0 : Int) | .noAckAddr => 10 | .noAckData => 11 | .arbLost => 12 | .busStuck => 13
    | .busyTimeout => 14 | .busFault => 15
  (∀ (e : Event) (s : State), e.kind < 24 →
    (s.part = .off ∨ s.part = .loading → ∀ b < 24,
      emit e s = { s with list := { s.list with missed := (emit e s).list.missed } }
      ∧ (emit e s).list.missed.getLsbD b = (s.list.missed.getLsbD b || b == e.kind))
    ∧ (s.part = .faulted → emit e s = s))
  ∧ (∀ (last x : Int) (n : Nat), Carries (Event.mark last n x) 0 6 12 [(0, 4, last), (4, 4, n), (8, 4, x)])
  ∧ (∀ target x : Int, Carries (Event.stopReached target x) 1 6 8 [(0, 4, target), (4, 4, x)])
  ∧ (∀ (before cand : Int) (count : Word),
      Carries (Event.chainageResync before cand count) 2 6 12 [(0, 4, before), (4, 4, cand), (8, 4, count.toNat)])
  ∧ (∀ lost : Bool, Carries (Event.chainageHeld lost) 3 6 1 [(0, 1, flag lost)])
  ∧ (∀ (x : Int) (count : Word), Carries (Event.chainageResumed x count) 4 6 8 [(0, 4, x), (4, 4, count.toNat)])
  ∧ (∀ (left : LinkState) (kind : Byte),
      Carries (Event.linkUp left kind) 5 7 2 [(0, 1, linkCode left), (1, 1, kind.toNat)])
  ∧ (∀ (left : LinkState) (ms : Nat), Carries (Event.linkLost left ms) 6 7 3 [(0, 1, linkCode left), (1, 2, ms)])
  ∧ (∀ (kind : Byte) (bytes : List Byte), bytes.length ≤ 32 →
      Carries (Event.linkMessage kind bytes) 7 7 (2 + bytes.length) ((0, 1, kind.toNat) :: (1, 1, bytes.length)
        :: (List.range bytes.length).map fun i => (2 + i, 1, u8 bytes i)))
  ∧ (∀ (kind : Byte) (before after : Bool), Carries (Event.surfaceHold kind before after) 8 6 3
      [(0, 1, kind.toNat), (1, 1, flag before), (2, 1, flag after)])
  ∧ (∀ (last : Word) (limit : Nat) (los : Bool), Carries (Event.captureStall last limit los) 9 2 6
      [(0, 4, last.toNat), (4, 1, limit), (5, 1, flag los)])
  ∧ (∀ (seq : Word) (prior : Nat), Carries (Event.captureResumed seq prior) 10 2 5 [(0, 4, seq.toNat), (4, 1, prior)])
  ∧ (∀ (seq : Word) (held play still : Nat), Carries (Event.captureDeferred seq held play still) 11 1 7
      [(0, 4, seq.toNat), (4, 1, held), (5, 1, play), (6, 1, still)])
  ∧ (∀ seq : Word, Carries (Event.sensorLos seq) 12 1 4 [(0, 4, seq.toNat)]
      ∧ Carries (Event.sensorRestored seq) 13 1 4 [(0, 4, seq.toNat)])
  ∧ (∀ temp cut : Int, Carries (Event.thermalCut temp cut) 14 4 4 [(0, 2, temp), (2, 2, cut)]
      ∧ Carries (Event.thermalRestore temp) 15 4 2 [(0, 2, temp)])
  ∧ (∀ b wanted applied : Nat, Carries (Event.budgetClamp b wanted applied) 16 4 6
      [(0, 2, b), (2, 2, wanted), (4, 2, applied)])
  ∧ (∀ (old new : Nat) (down : Bool), Carries (Event.budgetChanged old new down) 17 4 5
      [(0, 2, old), (2, 2, new), (4, 1, flag down)])
  ∧ (∀ (cause : StaleCause) (age : Nat), Carries (Event.tempStale cause age) 18 4 3
      [(0, 1, match cause with | .noEntry => 0 | .failures => 1 | .age => 2), (1, 2, age)])
  ∧ (∀ byReset clk dat : Bool, Carries (Event.busFault byReset clk dat) 19 8 3
      [(0, 1, flag byReset), (1, 1, flag clk), (2, 1, flag dat)])
  ∧ (∀ (entry address : Nat) (o : BusOutcome), Carries (Event.pollFailing entry address o) 20 8 3
      [(0, 1, entry), (1, 1, address), (2, 1, resultCode o)])
  ∧ (∀ (value gain : Nat) (o : BusOutcome), Carries (Event.gainWriteFailed value gain o) 21 5 5
      [(0, 2, value), (2, 2, gain), (4, 1, resultCode o)])
  ∧ (∀ (cause origin entry : Nat) (seq : Word), Carries (Event.stillMissed cause origin entry seq) 22 9 8
      [(0, 1, cause), (1, 1, origin), (2, 1, entry), (3, 1, 0), (4, 4, seq.toNat)])
  ∧ StillOrigin.mark.code = 0 ∧ StillOrigin.stop.code = 1
  ∧ (∀ index lap slotLap : Nat, Carries (Event.listFault index lap slotLap) 23 0 4
      [(0, 2, index), (2, 1, lap), (3, 1, slotLap)])
  ∧ ∀ (e : Event) (s : State), Working s → RegionsOk s → e.kind < 24 → e.payload.length ≤ 36 →
    let read := u32 (Memory.readList s.mem (s.areaBase + 0x280) 4) 0
    let used := (s.list.evIndex + s.cfg.eventCount - read % s.cfg.eventCount) % s.cfg.eventCount
    let a := s.cfg.eventBase + 48 * s.list.evIndex
    (used < s.cfg.eventCount - 1 →
      Memory.read (emit e s).mem a = byte s.list.evLap ∧ Memory.read (emit e s).mem (a + 1) = byte e.kind
      ∧ Memory.read (emit e s).mem (a + 2) = byte e.source.code
      ∧ Memory.read (emit e s).mem (a + 3) = byte e.payload.length
      ∧ Memory.readList (emit e s).mem (a + 4) 4 = le32 s.playout.frames.toNat
      ∧ Memory.readList (emit e s).mem (a + 8) 4 = le32i s.chainage.x
      ∧ Memory.readList (emit e s).mem (a + 12) 36 = e.payload ++ List.replicate (36 - e.payload.length) 0
      ∧ SameOutside [(a, 48)] s (emit e s)
      ∧ emit e s = { s with
          mem := (emit e s).mem, attention := s.attention ||| attEvent
          list := { s.list with
            evIndex := if s.list.evIndex + 1 < s.cfg.eventCount then s.list.evIndex + 1 else 0
            evLap := if s.list.evIndex + 1 < s.cfg.eventCount then s.list.evLap else (s.list.evLap + 1) % 4 } })
    ∧ (used = s.cfg.eventCount - 1 → ∀ b < 24,
        emit e s = { s with list := { s.list with missed := (emit e s).list.missed } }
        ∧ (emit e s).list.missed.getLsbD b = (s.list.missed.getLsbD b || b == e.kind))

/-- A request that names what does not exist changes nothing and is answered BAD_ARGUMENT with both words 0; one of no
known kind is answered BAD_KIND. The request is the one the scan holds in hand (the model's hand-over, log entry 4).
How R18's layers are read is log entry 32. -/
def Obligations.MalformedRequestsRefused : Prop :=
  ∀ (k : Nat) (r : Request) (s : State), InHand k r s →
    let bad := answered r.slot 3 0 0 (released s)
    let at_ := u8 r.args
    ((k = 0 ∨ 17 < k) → exec .badKind s = .next (answered r.slot 2 0 0 (released s)))
    ∧ (k = 1 → (5 < at_ 0 ∨ at_ 1 % 8 = 0 ∨ (bitAt r.args 1 0 = true ∧ 2 < at_ 2) ∨ (bitAt r.args 1 1 = true ∧ 1 < at_ 3)) →
        exec .lampSet s = .next bad)
    ∧ (k = 2 → 2 < at_ 0 → exec .exposureSet s = .next bad)
    ∧ (k = 3 → (2 < at_ 0 ∨ 1 < at_ 1) → exec .chainageRun s = .next bad)
    ∧ (k = 4 → (at_ 0 % 16 = 0 ∨ (bitAt r.args 0 1 = true ∧ at_ 1 ≠ 1 ∧ at_ 1 ≠ 255)) →
        exec .chainageCalibrate s = .next bad)
    ∧ (k = 5 → (at_ 0 % 32 = 0 ∨ (bitAt r.args 0 1 = true ∧ 1 < at_ 1) ∨ (bitAt r.args 0 2 = true ∧ 1 < at_ 2)) →
        exec .markSet s = .next bad)
    ∧ (k = 6 → 2 < at_ 0 → exec .driveHold s = .next bad)
    ∧ (k = 13 → (127 < at_ 0 ∨ 1 < at_ 1 ∨ (at_ 1 = 0 ∧ 16 < at_ 2) ∨ (at_ 1 = 1 ∧ 32 < at_ 2) ∨ 32 < at_ 3) →
        exec .busTransfer s = .next bad)
    ∧ (k = 14 → (7 < at_ 0 ∨ 127 < at_ 2 ∨ at_ 4 = 0 ∨ 4 < at_ 4 ∨ 1 < at_ 6 ∨ (at_ 6 = 1 ∧ at_ 4 ≠ 2)
          ∨ (at_ 6 = 1 ∧ ∃ i < s.bus.polls.length, i ≠ at_ 0 ∧ (s.bus.polls.getD i {}).entry.role = .temperature)) →
        exec .pollSet s = .next bad)
    ∧ (k = 16 → (at_ 0 < 0xA0 ∨ 0xBF < at_ 0 ∨ 32 < at_ 1) → exec .uplinkSend s = .next bad)
    ∧ (k = 17 → 2 ^ 24 ≤ u32 r.args 4 → exec .latchClear s = .next bad)

/-! ### Requests answered within the scan -/

/-- LAMP_SET writes the present changes into its channel's record and no other, makes a lamp update, and answers with
the channel's applied level and the total current. A lamp update, in any part state, serves the manual channels one by
one at the largest level that fits, the AUTO channels at the largest common one, and gives the budget cap, the total
and the clamp flag with its event. An output is low in OFF and LOADING and in mode OFF, runs at its applied level in
STEADY, and in STROBE while the strobe window is open. The request is the one the scan holds in hand (the model's
hand-over, log entry 4). Model's choices: a boost that the ceiling brings down sets the clamp flag (log entry 36), and
a channel of full-scale current 0 keeps its level (log entry 13). -/
def Obligations.LampSetWritesChannel : Prop :=
  (∀ (i : Nat) (s : State),
    (s.part = .off ∨ s.part = .loading ∨ s.lamp.channels.length ≤ i → lampPin s i = none)
    ∧ ∀ c : Channel, s.lamp.channels[i]? = some c → s.part ≠ .off → s.part ≠ .loading →
      (c.mode = .off → lampPin s i = none) ∧ (c.mode = .steady → lampPin s i = some c.applied)
      ∧ (c.mode = .strobe → s.lamp.strobe = true → lampPin s i = some c.applied)
      ∧ (c.mode = .strobe → s.lamp.strobe = false → lampPin s i = none))
  ∧ ∀ (r : Request) (s : State), InHand 1 r s → s.lamp.channels.length = 6 →
    let ch := u8 r.args 0
    let level := u16 r.args 4
    ch ≤ 5 → u8 r.args 1 % 8 ≠ 0 → (bitAt r.args 1 0 = true → u8 r.args 2 ≤ 2) → (bitAt r.args 1 1 = true → u8 r.args 3 ≤ 1) →
    ∃ t, exec .lampSet s = .next t
      ∧ (∀ (i : Nat) (c : Channel), s.lamp.channels[i]? = some c → i ≠ ch →
          ∃ n, t.lamp.channels[i]? = some { c with applied := n })
      ∧ (∀ c : Channel, s.lamp.channels[ch]? = some c → ∃ c', t.lamp.channels[ch]? = some c'
          ∧ c'.mode = (if bitAt r.args 1 0 then [LampMode.off, .steady, .strobe].getD (u8 r.args 2) .off else c.mode)
          ∧ c'.control = (if bitAt r.args 1 1 then [LampControl.auto, .manual].getD (u8 r.args 3) .manual else c.control)
          ∧ c'.manual = (if bitAt r.args 1 2 then min 1023 level else c.manual)
          ∧ c'.iFull = c.iFull ∧ c'.standby = c.standby
          ∧ HoldsAnswer r.slot (if bitAt r.args 1 2 = true ∧ 1023 < level then 1 else 0) c'.applied t.lamp.total t)
      ∧ (∀ c : Channel, s.lamp.channels[ch]? = some c →
          let changed : Channel := { c with
            mode := if bitAt r.args 1 0 then [LampMode.off, .steady, .strobe].getD (u8 r.args 2) .off else c.mode
            control := if bitAt r.args 1 1 then [LampControl.auto, .manual].getD (u8 r.args 3) .manual else c.control
            manual := if bitAt r.args 1 2 then min 1023 level else c.manual }
          let updated := lampUpdate .running s.cfg.stillLevel
            { s.lamp with channels := s.lamp.channels.set ch changed }
          let code := if bitAt r.args 1 2 = true ∧ 1023 < level then 1 else 0
          t.lamp = updated.1
            ∧ Writes (events updated.2 ++ [.answer r.slot code (t.lamp.channels.getD ch {}).applied t.lamp.total])
                (released s) t)
      ∧ (∀ (part : PartState) (stillLevel : Nat) (l : Lamp), let u := lampUpdate part stillLevel l
          LampUpdated part stillLevel l u.1 ∧ u.2 = clampEvents part stillLevel l u.1)
      ∧ (∀ c ∈ t.lamp.channels, c.applied ≤ s.lamp.ceiling) ∧ t.lamp.total ≤ s.lamp.budget
      ∧ t.lamp = { s.lamp with
          channels := t.lamp.channels, cap := t.lamp.cap, lApp := t.lamp.lApp, total := t.lamp.total
          clamp := t.lamp.clamp }
      ∧ SameOutside [slotHead r.slot, eventList s] s t ∧ SameListButEvents s t
      ∧ t = { s with mem := t.mem, attention := t.attention, list := t.list, lamp := t.lamp }

/-- EXPOSURE_SET: a t_min above t_max refuses it whole; else each present parameter is taken within its range, the
mode applied, the plan brought within bounds, the gain handed, and the plan's t and g answered, CLAMPED exactly when a
present argument lies outside its range and OK otherwise. The request is the one the scan holds in hand (the model's
hand-over, log entry 4). Model's choices: a preferred time moved between the new bounds counts as CLAMPED (log entry
35), every plan in MANUAL has the L_cap L_max (log entry 40), and the answer comes before the head bus unit looks for
work (log entry 9). -/
def Obligations.ExposureSetTakesParameters : Prop :=
  ∀ (r : Request) (s : State), InHand 2 r s → u8 r.args 0 ≤ 2 →
    let has := fun n : Nat => (u16 r.args 2).testBit n
    let tMin := if has 0 then clampNat 20 200000 (u32 r.args 4) else s.exposure.tMin
    let tMax := if has 2 then clampNat 20 200000 (u32 r.args 12) else s.exposure.tMax
    (tMax < tMin → exec .exposureSet s = .next (answered r.slot 3 0 0 (released s)))
    ∧ (tMin ≤ tMax → ∃ (t : State) (e : Exposure), exec .exposureSet s = .next t
        ∧ e.tMin = tMin ∧ e.tMax = tMax
        ∧ e.tPref = clampNat tMin tMax (if has 1 then u32 r.args 8 else s.exposure.tPref)
        ∧ e.gMax = (if has 3 then clampNat 256 4096 (u16 r.args 16) else s.exposure.gMax)
        ∧ e.lMin = (if has 4 then min 1023 (u16 r.args 18) else s.exposure.lMin)
        ∧ e.lMax = (if has 5 then min 1023 (u16 r.args 20) else s.exposure.lMax)
        ∧ e.target = (if has 6 then clampNat 16 235 (u8 r.args 22) else s.exposure.target)
        ∧ e.tolerance = (if has 7 then min 32 (u8 r.args 23) else s.exposure.tolerance)
        ∧ e.damping = (if has 8 then clampNat 1 16 (u8 r.args 24) else s.exposure.damping)
        ∧ e.mode = (if u8 r.args 0 = 1 then .auto else if u8 r.args 0 = 2 then .manual else s.exposure.mode)
        ∧ (e.mode = .manual → e.lCap = e.lMax
            ∧ e.planT = clampNat tMin tMax (if has 9 then u32 r.args 28 else s.exposure.planT)
            ∧ e.planG = clampNat 256 e.gMax (if has 10 then u16 r.args 32 else s.exposure.planG)
            ∧ e.planL = min e.lMax (if has 11 then u16 r.args 34 else s.exposure.planL))
        ∧ (e.mode = .auto →
            e.lCap = min (min s.lamp.ceiling s.lamp.cap) e.lMax
            ∧ e.planT = clampNat tMin tMax s.exposure.planT
            ∧ e.planG = clampNat 256 e.gMax s.exposure.planG
            ∧ e.planL = min s.exposure.planL e.lCap)
        ∧ e = { s.exposure with
            mode := e.mode, tMin := e.tMin, tPref := e.tPref, tMax := e.tMax, gMax := e.gMax, lMin := e.lMin
            lMax := e.lMax, target := e.target, tolerance := e.tolerance, damping := e.damping, planL := e.planL
            planT := e.planT, planG := e.planG, lCap := e.lCap }
        ∧ (let code := if exposureMoved r.args e then 1 else 0
            let handed := handGain { released s with exposure := e }
            (BusReachable s → t = served (answered r.slot code e.planT e.planG
              { handed with exposure := { handed.exposure with retry := false } }))
            ∧ (BusQuiet s →
              t.exposure = { e with
                gws := t.exposure.gws, handedGain := t.exposure.handedGain, busGain := t.exposure.busGain
                behind := t.exposure.behind, retry := false }
              ∧ ((s.bus.pendingGain = none ∨ s.bus.pendingGain = s.exposure.handedGain) →
                e.planG ≠ s.exposure.gainInEffect → t.exposure.handedGain = some e.planG)
              ∧ HoldsAnswer r.slot code e.planT e.planG t
              ∧ SameOutside [slotHead r.slot] s t ∧ t.list = (released s).list
              ∧ t = { s with
                      mem := t.mem, attention := t.attention, list := t.list, exposure := t.exposure, bus := t.bus })))

/-- CHAINAGE_RUN: a zero only from STOPPED and without a start, else ZERO_REFUSED; then the run part; X and the run
state are answered. The whole chainage unit after a zero taken is given, and a zero evaluates the stop target, which
reports and may order a still. The request is the one the scan holds in hand (the model's hand-over, log entry 4).
Model's choice: the stop target's events and still order come before the completion (log entry 9). -/
def Obligations.ChainageRunZeroesStartsStops : Prop :=
  ∀ (r : Request) (s : State), InHand 3 r s → u8 r.args 0 ≤ 2 → u8 r.args 1 ≤ 1 →
    let c := s.chainage
    let yes := u8 r.args 0 = 1
    let no := u8 r.args 0 = 2
    let zeroed := u8 r.args 1 = 1 ∧ c.run = .stopped ∧ u8 r.args 0 ≠ 1
    let fires := if zeroed then c.stopTarget.filter fun x => match c.travel with
        | .increasing => decide (x ≤ c.originValue)
        | .decreasing => decide (c.originValue ≤ x) else none
    let stop := match fires with
      | none => []
      | some x => .event (Event.stopReached x c.originValue) :: if c.autoStop then orderWrites .stop s else []
    ∃ t, exec .chainageRun s = .next t
      ∧ Writes (stop ++ [.answer r.slot (if u8 r.args 1 = 1 ∧ ¬ zeroed then 16 else 0) (wordOfInt t.chainage.x)
          (if t.chainage.run = .running then 1 else 0)])
          { released s with chainage := { c with x := t.chainage.x } } t
      ∧ t.still = (if fires.isSome && c.autoStop then orderedStill .stop s else s.still)
      ∧ t.chainage.run = (if yes then .running else if no then .stopped else c.run)
      ∧ HoldsAnswer r.slot (if u8 r.args 1 = 1 ∧ ¬ zeroed then 16 else 0) (wordOfInt t.chainage.x)
          (if t.chainage.run = .running then 1 else 0) t
      ∧ t.chainage.held = c.held ∧ t.chainage.lastCount = c.lastCount ∧ t.chainage.stopTarget = c.stopTarget
      ∧ (¬ zeroed → t.chainage = { c with
          run := t.chainage.run, rejects := t.chainage.rejects, baseX := t.chainage.baseX
          originCount := t.chainage.originCount, originValid := t.chainage.originValid })
      ∧ (c.run = t.chainage.run → ¬ zeroed → t.chainage = c)
      ∧ (c.run = .stopped → yes → t.chainage.baseX = c.x ∧ t.chainage.rejects = 0
          ∧ t.chainage.originValid = (c.originValid || c.countReceived)
          ∧ (c.countReceived = true → t.chainage.originCount = c.lastCount))
      ∧ (c.run = .running → no → t.chainage = { c with run := .stopped, rejects := 0 })
      ∧ (zeroed → t.chainage = { c with
            x := c.originValue, baseX := c.originValue, saturated := false, rejects := 0
            originCount := if c.countReceived then c.lastCount else c.originCount, originValid := c.countReceived
            nextMark := armedMark { c with x := c.originValue }, fired := fires.isSome
            reasons := { c.reasons with stopTarget := c.reasons.stopTarget || fires.isSome } }
          ∧ (t.chainage.fired = true ↔ ∃ target, c.stopTarget = some target
              ∧ (c.travel = .increasing → target ≤ c.originValue) ∧ (c.travel = .decreasing → c.originValue ≤ target))
          ∧ (t.chainage.fired = true → t.chainage.reasons.stopTarget = true ∧ Reported 1 t))
      ∧ SameOutside [slotHead r.slot, eventList s] s t ∧ SameListButEvents s t
      ∧ t = { s with
              mem := t.mem, attention := t.attention, list := t.list, chainage := t.chainage, still := t.still }

/-- CHAINAGE_CALIBRATE, whole: a running unit rebases, the present values are taken within their ranges, the marks are
armed; X and the scale are answered; a request with nothing present or a direction other than +1 and −1 is refused.
The request is the one the scan holds in hand (the model's hand-over, log entry 4). -/
def Obligations.CalibrateRebasesAndArms : Prop :=
  ∀ (r : Request) (s : State), InHand 4 r s →
    let c := s.chainage
    let has := bitAt r.args 0
    let d := s8 r.args 1
    let a0 := s32 r.args 8
    let refused := (has 0 || has 1 || has 2 || has 3) = false ∨ (has 1 = true ∧ d ≠ 1 ∧ d ≠ -1)
    let scale := if has 0 then min 16777215 (max 1 (u32 r.args 4)) else c.scale
    let limit := if has 3 then min 65535 (max 1 (u32 r.args 12)) else c.stepLimit
    let origin := if has 2 then min 9999994 (max (-999994) a0) else c.originValue
    let moved := (has 0 = true ∧ scale ≠ u32 r.args 4) ∨ (has 3 = true ∧ limit ≠ u32 r.args 12)
      ∨ (has 2 = true ∧ origin ≠ a0)
    (refused → exec .chainageCalibrate s = .next (answered r.slot 3 0 0 (released s)))
    ∧ (¬ refused → exec .chainageCalibrate s = .next
        (answered r.slot (if moved then 1 else 0) (wordOfInt c.x) scale { released s with
          chainage := { c with
            scale := scale, stepLimit := limit, originValue := origin
            forward := if has 1 then decide (d = 1) else c.forward
            baseX := if c.run = .running then c.x else c.baseX
            originCount := if c.run = .running ∧ c.originValid = true then c.lastCount else c.originCount
            nextMark := armedMark c } }))

/-- Arming sets the smallest multiple of the mark interval greater than X, or the largest less than X, by the travel
direction; none with interval 0. -/
def Obligations.ArmingSetsNextMultiple : Prop :=
  ∀ c : Chainage,
    (c.markInterval = 0 → armedMark c = none)
    ∧ (c.markInterval ≠ 0 → ∃ n : Int, armedMark c = some (n * c.markInterval)
        ∧ (c.travel = .increasing → c.x < n * c.markInterval ∧ ∀ k : Int, c.x < k * c.markInterval → n ≤ k)
        ∧ (c.travel = .decreasing → n * c.markInterval < c.x ∧ ∀ k : Int, k * c.markInterval < c.x → k ≤ n))

/-- MARK_SET, whole: the present values replace those in force, the marks are armed, the stop target is evaluated,
reports and may order a still, and the next mark and the fired flag are answered. The request is the one the scan
holds in hand (the model's hand-over, log entry 4). Model's choice: the stop target's events and still order come
before the completion (log entry 9). -/
def Obligations.MarkSetReplacesAndEvaluates : Prop :=
  ∀ (r : Request) (s : State), InHand 5 r s →
    let c := s.chainage
    let has := bitAt r.args 0
    let iv := u32 r.args 4
    let tg := s32 r.args 8
    let refused := (has 0 || has 1 || has 2 || has 3 || has 4) = false ∨ (has 1 = true ∧ 1 < u8 r.args 1)
      ∨ (has 2 = true ∧ 1 < u8 r.args 2)
    let interval := if has 0 then (if iv = 0 then 0 else min 100000 (max 100 iv)) else c.markInterval
    let travel := if has 1 then (if u8 r.args 1 = 0 then .increasing else .decreasing) else c.travel
    let target := if has 2 then (if u8 r.args 2 = 0 then some (min 9999994 (max (-999994) tg)) else none) else c.stopTarget
    let moved := (has 0 = true ∧ interval ≠ iv)
      ∨ (has 2 = true ∧ u8 r.args 2 = 0 ∧ (tg < -999994 ∨ 9999994 < tg))
    let reached := ∃ x ∈ target, (travel = .increasing → x ≤ c.x) ∧ (travel = .decreasing → c.x ≤ x)
    (refused → exec .markSet s = .next (answered r.slot 3 0 0 (released s)))
    ∧ (¬ refused → ∃ t, exec .markSet s = .next t
        ∧ t.chainage = { c with
            markInterval := interval, travel := travel, stopTarget := target
            nextMark := armedMark { c with markInterval := interval, travel := travel }
            autoMark := if has 3 then bitAt r.args 3 0 else c.autoMark
            autoStop := if has 4 then bitAt r.args 3 1 else c.autoStop
            fired := t.chainage.fired, reasons := { c.reasons with stopTarget := t.chainage.reasons.stopTarget } }
        ∧ (t.chainage.fired = true ↔ (c.fired = true ∧ has 2 = false) ∨ reached)
        ∧ (t.chainage.reasons.stopTarget = true ↔
            c.reasons.stopTarget = true ∨ ((c.fired = false ∨ has 2 = true) ∧ reached))
        ∧ ((c.fired = false ∨ has 2 = true) → reached → Reported 1 t)
        ∧ (let fires := (!c.fired || has 2) && decide reached
          let stop := if fires then
              .event (Event.stopReached (target.getD 0) c.x) :: (if t.chainage.autoStop then orderWrites .stop s else [])
            else []
          Writes (stop ++ [.answer r.slot (if moved then 1 else 0) (wordOfInt (t.chainage.nextMark.getD 0))
              (if t.chainage.fired then 1 else 0)]) (released s) t
            ∧ t.still = if fires && t.chainage.autoStop then orderedStill .stop s else s.still)
        ∧ HoldsAnswer r.slot (if moved then 1 else 0) (wordOfInt (t.chainage.nextMark.getD 0))
            (if t.chainage.fired then 1 else 0) t
        ∧ SameOutside [slotHead r.slot, eventList s] s t ∧ SameListButEvents s t
        ∧ t = { s with
                mem := t.mem, attention := t.attention, list := t.list, chainage := t.chainage, still := t.still })

/-- DRIVE_HOLD, whole: SET and CLEAR of HOST, the two clears, the refusal of a LINK_LOST clear in LOST with
STILL_ACTIVE, and the reason set answered. HOLD_OUT is high exactly while some reason is present. The request is the
one the scan holds in hand (the model's hand-over, log entry 4). Model's choice: a LINK_LOST clear in LOST with the
reason absent is answered STILL_ACTIVE too (log entry 42). -/
def Obligations.DriveHoldSetsAndClears : Prop :=
  (∀ s : State, holdOut s = true ↔ s.chainage.reasons.notRunning = true ∨ s.chainage.reasons.stopTarget = true
    ∨ s.chainage.reasons.linkLost = true ∨ s.chainage.reasons.surface = true ∨ s.chainage.reasons.host = true)
  ∧ ∀ (r : Request) (s : State), InHand 6 r s →
    let reasons := s.chainage.reasons
    let clearStop := bitAt r.args 1 0
    let clearLink := bitAt r.args 1 1
    let host := if u8 r.args 0 = 1 then true else if u8 r.args 0 = 2 then false else reasons.host
    let stop := reasons.stopTarget && !clearStop
    let link := if clearLink = true ∧ s.link.state ≠ .lost then false else reasons.linkLost
    let bit := fun b : Bool => if b then 1 else 0
    let word := bit reasons.notRunning + 2 * bit stop + 4 * bit link + 8 * bit reasons.surface + 16 * bit host
    (2 < u8 r.args 0 → exec .driveHold s = .next (answered r.slot 3 0 0 (released s)))
    ∧ (u8 r.args 0 ≤ 2 → exec .driveHold s = .next
        (answered r.slot (if clearLink = true ∧ s.link.state = .lost then 17 else 0) word 0 { released s with
          chainage := { s.chainage with
            reasons := { reasons with host := host, stopTarget := stop, linkLost := link } } }))

/-- FRAME_HOLD, by the first case of R36's table; the last sets the hold and the header's hold field. FRAME_RELEASE
clears both of the held store with the sequence, or is answered NOT_HELD; a DEFERRED capture unit with a selectable
store then triggers. The number of held stores is the count of the stores in the ring that are held. The request is
the one the scan holds in hand (the model's hand-over, log entry 4). Model's choice: FRAME_RELEASE answers before the
deferred capture unit triggers (log entry 9). -/
def Obligations.FrameHoldAndRelease : Prop :=
  ∀ (r : Request) (s : State), s.cfg.stores ≤ s.ring.length →
    heldStores s = ((List.range s.cfg.stores).filter fun k => (storeAt s k).hold).length
    ∧ (InHand 7 r s →
      let seq := BitVec.ofNat 32 (u32 r.args 0)
      let isIt := fun k => (storeAt s k).state = .complete ∧ (storeAt s k).seq = seq
      ((∀ k < s.cfg.stores, ¬ isIt k) → exec .frameHold s = .next (answered r.slot 5 0 0 (released s)))
      ∧ ∀ k < s.cfg.stores, isIt k → (∀ j < k, ¬ isIt j) →
        ((storeAt s k).hold = true → exec .frameHold s = .next (answered r.slot 0 k (heldStores s) (released s)))
        ∧ ((storeAt s k).hold = false → s.cfg.stores - 2 ≤ heldStores s →
            exec .frameHold s = .next (answered r.slot 6 0 0 (released s)))
        ∧ ((storeAt s k).hold = false → heldStores s < s.cfg.stores - 2 →
            exec .frameHold s = .next (answered r.slot 0 k (heldStores s + 1) { released s with
              ring := s.ring.set k { storeAt s k with hold := true }
              mem := Memory.write s.mem (storeBase s.cfg k + 1) 1 })))
    ∧ (InHand 8 r s →
      let seq := BitVec.ofNat 32 (u32 r.args 0)
      let isIt := fun k => (storeAt s k).hold = true ∧ (storeAt s k).seq = seq
      ((∀ k < s.cfg.stores, ¬ isIt k) → exec .frameRelease s = .next (answered r.slot 7 0 0 (released s)))
      ∧ ∀ k < s.cfg.stores, isIt k → (∀ j < k, ¬ isIt j) →
        let freed := { released s with
          ring := s.ring.set k { storeAt s k with hold := false }
          mem := Memory.write s.mem (storeBase s.cfg k + 1) 0 }
        exec .frameRelease s = .next (retried (answered r.slot 0 k (heldStores s - 1) freed))
        ∧ (∀ j p, s.capture.trig = .deferred → s.capture.plan = some p → selectStore freed = some j →
            ∃ t, exec .frameRelease s = .next t ∧ t.capture.trig = .exposing ∧ t.capture.selPtr = some j
              ∧ Writes ([.store (storeBase s.cfg k + 1) [0], .answer r.slot 0 k (heldStores s - 1)]
                  ++ startWrites j p s) (released s) t
              ∧ SameOutside [slotHead r.slot, eventList s, storeHeader s k, storeHeader s j] s t
              ∧ SameListButEvents s t))

/-- LATCH_CLEAR, whole: the mask bits named and the stall latch are cleared, the stall episode stays, and what is left
is answered; a mask bit above the 24 kinds refuses it. The request is the one the scan holds in hand (the model's
hand-over, log entry 4). -/
def Obligations.LatchClearClearsNamedBits : Prop :=
  ∀ (r : Request) (s : State), InHand 17 r s →
    let mask := u32 r.args 4
    let latch := if u8 r.args 0 ≠ 0 then false else s.playout.stallLatch
    (2 ^ 24 ≤ mask → exec .latchClear s = .next (answered r.slot 3 0 0 (released s)))
    ∧ (mask < 2 ^ 24 → ∃ left : BitVec 24,
        (∀ b < 24, left.getLsbD b = (s.list.missed.getLsbD b && !mask.testBit b))
        ∧ exec .latchClear s = .next (answered r.slot 0 left.toNat (if latch then 1 else 0)
            { s with
              list := { s.list with handed := none, missed := left }
              playout := { s.playout with stallLatch := latch } }))

/-! ### Requests that wait in a unit -/

/-- SNAPSHOT, the three overlay edits and a well-formed UPLINK_SEND join their unit's queue at its end in RUNNING,
their slot unanswered; a SNAPSHOT that finds two orders is answered BUSY. What each edit does when it is applied: the
cells, palette, key, blink, banner, mark style and glyphs it changes, its result code and words, and its refusals. The
stamp field is ten cells from its start cell. The request is the one the scan holds in hand (the model's hand-over,
log entry 4). How R18's layers are read, and that a refused cell refuses its whole edit, is log entry 32. Model's
choices: an edit that its arguments refuse reads no buffer (log entry 50), CLEAR_LAYER has no start position and only
the modes that use the layer byte look at it (log entry 51), and a cell it passes over is not counted (log entry 54).
-/
def Obligations.QueuedRequestsWait : Prop :=
  (∀ (k : Nat) (r : Request) (s : State), InHand k r s →
    let waiting := { released s with overlay := { s.overlay with edits := s.overlay.edits ++ [r] } }
    (k = 9 → s.still.orders.length < 2 → exec .snapshot s = .next { released s with
        still := { s.still with
          orders := s.still.orders ++ [{ origin := .snapshot r.slot, claimed := false, frameSeq := 0 }] } })
    ∧ (k = 9 → 2 ≤ s.still.orders.length → exec .snapshot s = .next (answered r.slot 4 0 0 (released s)))
    ∧ (k = 10 → exec .overlayWrite s = .next waiting) ∧ (k = 11 → exec .overlayStyle s = .next waiting)
    ∧ (k = 12 → exec .fontLoad s = .next waiting)
    ∧ (k = 16 → 0xA0 ≤ u8 r.args 0 → u8 r.args 0 ≤ 0xBF → u8 r.args 1 ≤ 32 →
        exec .uplinkSend s = .next { released s with
          link := { s.link with
            queue := s.link.queue ++ [{ host := some r.slot, kind := r.args.getD 0 0,
                                        payload := (r.args.drop 4).take (u8 r.args 1) }] } }))
  ∧ (∀ (cfg : Cfg) (i : Nat), inStampField cfg i = true ↔
      64 * cfg.stampRow + cfg.stampCol ≤ i ∧ i < 64 * cfg.stampRow + cfg.stampCol + 10)
  ∧ ∀ (cfg : Cfg) (e : Request) (o : Overlay),
    let byteAt := fun i => e.args.getD i 0
    let a := u8 e.args
    let inGrid := a 1 < 48 ∧ a 2 < 64
    let done := applyEdit cfg e none o
    let refused : EditResult := ⟨o, 3, 0, 0⟩
    let start := a 1 * 64 + a 2
    let list := fun (n : Nat) (cell : Nat → Cell) =>
      (List.range n).map fun i => (if start + i < 3072 then some (start + i) else none, cell i)
    let rectangle := fun (cell : Cell → Cell) => (List.range (min 48 (a 4))).flatMap fun row =>
      (List.range (min 64 (a 5))).map fun col =>
        let i := (a 1 + row) * 64 + (a 2 + col)
        (if a 1 + row < 48 ∧ a 2 + col < 64 then some i else none, cell (o.cells.getD i {}))
    let large := decide (48 < a 4 ∨ 64 < a 5)
    let cleared := fun (i : Nat) (c : Cell) => c.layer == a 3 && !inStampField cfg i
    let count := ((o.cells.mapIdx fun i c => cleared i c).filter fun b => b).length
    let codes := min (a 1) (0x100 - a 0)
    let fontBad := a 0 < 0xE0 ∨ u32 e.args 4 % 4 ≠ 0 ∨ a 1 = 0
    (e.kind = 10 →
      (a 0 ≤ 3 → ¬ inGrid → editBuffer e = none ∧ done = refused) ∧ (4 < a 0 → editBuffer e = none ∧ done = refused)
      ∧ (a 0 = 0 → inGrid → editBuffer e = none ∧ CellsWritten cfg o true (decide (20 < a 4))
          (list (min 20 (a 4)) fun i => { ch := byteAt (6 + 2 * i), attr := byteAt (7 + 2 * i)
                                          blink := decide (a 5 ≠ 0), layer := a 3 }) done)
      ∧ (a 0 = 1 → inGrid → u32 e.args 8 % 4 ≠ 0 → editBuffer e = none ∧ done = refused)
      ∧ (a 0 = 1 → inGrid → u32 e.args 8 % 4 = 0 →
          editBuffer e = some (u32 e.args 8, 4 * min 1024 (u16 e.args 4))
          ∧ ∀ b : List Byte, CellsWritten cfg o true (decide (1024 < u16 e.args 4))
              (list (min 1024 (u16 e.args 4)) fun i =>
                { ch := b.getD (4 * i) 0, attr := b.getD (4 * i + 1) 0, blink := decide (b.getD (4 * i + 2) 0 ≠ 0)
                  layer := u8 b (4 * i + 3) }) (applyEdit cfg e (some b) o))
      ∧ (a 0 = 2 → inGrid → editBuffer e = none ∧ CellsWritten cfg o false large
          (rectangle fun c => { c with attr := (c.attr &&& ~~~byteAt 6) ||| (byteAt 7 &&& byteAt 6) }) done)
      ∧ (a 0 = 3 → inGrid → editBuffer e = none ∧ CellsWritten cfg o true large
          (rectangle fun _ => { ch := byteAt 6, attr := byteAt 7, blink := decide (a 8 ≠ 0), layer := a 3 }) done)
      ∧ (a 0 = 4 → editBuffer e = none ∧ (3 ≤ a 3 → done = refused)
          ∧ (a 3 < 3 → done = ⟨{ o with cells := o.cells.mapIdx fun i c => if cleared i c then
              { ch := 0x20, attr := o.key ++ o.key, blink := false, layer := a 3 } else c },
              if count = 0 then 3 else 0, count, 0⟩)))
    ∧ (e.kind = 11 → editBuffer e = none ∧ done.w0 = 0 ∧ done.w1 = 0
      ∧ (a 0 = 0 → (a 2 = 0 ∨ 8 < a 2 ∨ 16 < a 1 + a 2) → done = refused)
      ∧ (a 0 = 0 → 0 < a 2 → a 2 ≤ 8 → a 1 + a 2 ≤ 16 → done.overlay = { o with palette := done.overlay.palette }
          ∧ (∀ (i : Nat) (p : PaletteEntry), o.palette[i]? = some p →
              let k := 4 + 4 * (i - a 1)
              done.overlay.palette[i]? = some (if a 1 ≤ i ∧ i < a 1 + a 2 then
                { y := byteAt k, cb := byteAt (k + 1), cr := byteAt (k + 2), opacity := min 16 (a (k + 3)) } else p))
          ∧ done.code = if ∃ i < a 2, 16 < a (7 + 4 * i) then 1 else 0)
      ∧ (a 0 = 1 → (a 1 % 8 = 0 ∨ ∃ i < 3, bitAt e.args 1 i = true ∧ 15 < a (2 + i)) → done = refused)
      ∧ (a 0 = 1 → a 1 % 8 ≠ 0 → (∀ i < 3, bitAt e.args 1 i = true → a (2 + i) ≤ 15) → done.code = 0
          ∧ done.overlay = { o with
              key := if bitAt e.args 1 0 then BitVec.ofNat 4 (a 2) else o.key
              care := if bitAt e.args 1 1 then BitVec.ofNat 4 (a 3) else o.care
              layerEnable := if bitAt e.args 1 2 then BitVec.ofNat 4 (a 4) else o.layerEnable })
      ∧ (a 0 = 2 → done.code = (if a 1 = 1 then 1 else 0)
          ∧ done.overlay = { o with blinkPeriod := if a 1 = 1 then 2 else a 1, blinkCounter := 0 })
      ∧ (a 0 = 3 → a 1 = 0 → a 2 = 0 → done = refused)
      ∧ (a 0 = 3 → ¬ (a 1 = 0 ∧ a 2 = 0) →
          let kept := (if a 1 = 0 then o.fifo else []) ++ (e.args.drop 4).take (min 44 (a 2))
          done.code = (if 44 < a 2 then 1 else 0)
          ∧ done.overlay = { o with fifo := kept.drop (kept.length - 128), pan := if a 1 = 0 then o.pan else 0 })
      ∧ (a 0 = 4 → done.code = (if 4 < a 1 then 1 else 0) ∧ done.overlay = { o with scrollSpeed := min 4 (a 1) })
      ∧ (a 0 = 5 → (15 < a 1 ∨ 15 < a 2) → done = refused)
      ∧ (a 0 = 5 → a 1 ≤ 15 → a 2 ≤ 15 → done.code = 0 ∧ done.overlay = { o with
          markAttr := BitVec.ofNat 4 (a 2) ++ BitVec.ofNat 4 (a 1), flashLen := a 3 })
      ∧ (5 < a 0 → done = refused))
    ∧ (e.kind = 12 → (fontBad → editBuffer e = none ∧ done = refused)
      ∧ (¬ fontBad → editBuffer e = some (u32 e.args 4, 48 * codes)
          ∧ ∀ b : List Byte, b.length = 48 * codes → o.glyphs.length = 1536 →
            let r := applyEdit cfg e (some b) o
            r.code = (if 0x100 < a 0 + a 1 then 1 else 0) ∧ r.w0 = codes ∧ r.w1 = a 0
            ∧ r.overlay = { o with glyphs := r.overlay.glyphs } ∧ r.overlay.glyphs.length = 1536
            ∧ ∀ i < 1536, let at_ := 48 * (a 0 - 0xE0)
                r.overlay.glyphs[i]? = if at_ ≤ i ∧ i < at_ + 48 * codes then b[i - at_]? else o.glyphs[i]?))

/-- In HALTING a BUS_TRANSFER, SNAPSHOT or UPLINK_SEND that the scan under way hands over is answered ABORTED, the
scan ends, no unit's queue takes it, and with it as the last work the part is HALTED. The quick requests complete as
in RUNNING, but EXPOSURE_SET hands no gain, and a BUS_RESET starts its recovery. Model's choice: that a HALT can fall
between the taking of a request and its hand-over (log entry 4). -/
def Obligations.HaltingHandOverAborts : Prop :=
  ∀ (r : Request) (s : State), s.part = .halting → s.list.handed = some r → s.list.resyncWaiting = false →
    RegionsOk s → r.slot + 64 ≤ 2 ^ 32 → Apart (slotHead r.slot) (eventList s) →
    let has := fun n : Nat => (u16 r.args 2).testBit n
    let Ends := fun c : Instr => ∃ t, exec c s = .next t ∧ HoldsAnswer r.slot 9 0 0 t
      ∧ t = settled (answered r.slot 9 0 0 (released { s with list := { s.list with scanning := false } }))
      ∧ SameOutside [slotHead r.slot, eventList s] s t
    let Completes := fun c : Instr => ∃ u, exec c { s with part := .running } = .next u
      ∧ exec c s = .next (settleHalt (endScan { u with part := .halting }))
    ((r.kind = 0 ∨ 17 < r.kind) → Completes .badKind)
    ∧ (r.kind = 1 → Completes .lampSet) ∧ (r.kind = 4 → Completes .chainageCalibrate)
    ∧ (r.kind = 3 → s.chainage.autoStop = false → Completes .chainageRun)
    ∧ (r.kind = 5 → s.chainage.autoStop = false → bitAt r.args 0 4 = false → Completes .markSet)
    ∧ (r.kind = 6 → Completes .driveHold) ∧ (r.kind = 7 → Completes .frameHold)
    ∧ (r.kind = 8 → s.capture.trig ≠ .deferred → Completes .frameRelease)
    ∧ (r.kind = 10 → Completes .overlayWrite) ∧ (r.kind = 11 → Completes .overlayStyle)
    ∧ (r.kind = 12 → Completes .fontLoad) ∧ (r.kind = 14 → Completes .pollSet) ∧ (r.kind = 17 → Completes .latchClear)
    ∧ (r.kind = 2 → u8 r.args 0 ≤ 2 →
        (if has 0 then clampNat 20 200000 (u32 r.args 4) else s.exposure.tMin)
          ≤ (if has 2 then clampNat 20 200000 (u32 r.args 12) else s.exposure.tMax) →
        ∃ t, exec .exposureSet s = .next t ∧ HoldsAnswer r.slot
            (if exposureMoved r.args t.exposure then 1 else 0) t.exposure.planT t.exposure.planG t
          ∧ t.exposure.handedGain = s.exposure.handedGain ∧ t.exposure.gws = s.exposure.gws ∧ t.bus = s.bus)
    ∧ (r.kind = 15 → s.bus.inHand = none → s.bus.state = .idle → s.bus.pendingGain = none → ∀ acked,
        ∃ t, exec (.busReset acked) s = .next t ∧ t.part = .halting ∧ t.bus = { s.bus with
          retries := 0, state := .recovery, afterReset := true, busyTimer := none, resets := [r.slot] })
    ∧ (r.kind = 9 → Ends .snapshot)
    ∧ (r.kind = 13 → u8 r.args 0 ≤ 127 → u8 r.args 1 ≤ 1 → (u8 r.args 1 = 0 → u8 r.args 2 ≤ 16) →
        (u8 r.args 1 = 1 → u8 r.args 2 ≤ 32) → u8 r.args 3 ≤ 32 → Ends .busTransfer)
    ∧ (r.kind = 16 → 0xA0 ≤ u8 r.args 0 → u8 r.args 0 ≤ 0xBF → u8 r.args 1 ≤ 32 → Ends .uplinkSend)

/-- BUS_TRANSFER joins the host transfer queue; on an idle unit with nothing else waiting it is taken into hand, with
its write bytes read from memory where the source is BUFFER; in FAULT it is answered BUS_FAULT at once. The request is
the one the scan holds in hand (the model's hand-over, log entry 4). -/
def Obligations.BusTransferJoinsQueue : Prop :=
  ∀ (r : Request) (s : State), InHand 13 r s →
    let buffered := decide (u8 r.args 1 = 1)
    let writeLen := u8 r.args 2
    let buffer := u32 r.args 8
    u8 r.args 0 ≤ 127 → u8 r.args 1 ≤ 1 → (buffered = false → writeLen ≤ 16) → (buffered = true → writeLen ≤ 32) →
    u8 r.args 3 ≤ 32 →
    let h : HostTransfer :=
      { slot := r.slot, address := u8 r.args 0, buffered := buffered, writeLen := writeLen, readLen := u8 r.args 3
        dest := u32 r.args 4, buffer := buffer, inline := (r.args.drop 12).take 16 }
    let queued := { released s with bus := { s.bus with queue := s.bus.queue ++ [h] } }
    ((s.bus.inHand.isSome = true ∨ (s.bus.state ≠ .idle ∧ s.bus.state ≠ .fault)) →
      exec .busTransfer s = .next queued)
    ∧ (s.bus.inHand = none → s.bus.state = .fault → s.bus.queue = [] → s.bus.pendingGain = none →
        (∀ p ∈ s.bus.polls, p.due = false) → (buffered = true → buffer + writeLen ≤ 2 ^ 32) →
        exec .busTransfer s = .next (answered r.slot 15 0 0
          { released s with bus := { s.bus with retries := 0, busyTimer := none } }))
    ∧ (s.bus.inHand = none → s.bus.state = .idle → s.bus.queue = [] → s.bus.pendingGain = none →
        (∀ p ∈ s.bus.polls, p.due = false) → (buffered = true → buffer + writeLen ≤ 2 ^ 32) →
        let bytes := if buffered then Memory.readList s.mem buffer writeLen else h.inline.take writeLen
        exec .busTransfer s = .next { queued with
          bus := { s.bus with
            queue := [h], retries := 0
            inHand := some { owner := .host h, address := h.address, write := bytes, readLen := h.readLen }
            state := if s.bus.monitorBusy then .waitFree else .active
            busyTimer := if s.bus.monitorBusy then some (s.now + s.cfg.busyMs * 1000) else s.bus.busyTimer } })

/-- POLL_SET replaces the named entry, with its countdown, due flag and slot; a period of 0 becomes 1; the lamp unit
is told when the TEMPERATURE entry comes or goes, and at its going reports TEMP_STALE and brings the ceiling to the
floor. The request is the one the scan holds in hand (the model's hand-over, log entry 4). Model's choice: the lamp
unit's events come before the completion (log entry 9). -/
def Obligations.PollSetReplacesEntry : Prop :=
  ∀ (r : Request) (s : State), InHand 14 r s → s.bus.polls.length = 8 →
    u8 r.args 0 ≤ 7 → u8 r.args 2 ≤ 127 → 1 ≤ u8 r.args 4 → u8 r.args 4 ≤ 4 → u8 r.args 6 ≤ 1 →
    (u8 r.args 6 = 1 → u8 r.args 4 = 2
      ∧ ∀ i < 8, i ≠ u8 r.args 0 → (s.bus.polls.getD i {}).entry.role = .general) →
    let j := u8 r.args 0
    let enable := decide (u8 r.args 1 ≠ 0)
    let period := if u8 r.args 5 = 0 then 1 else u8 r.args 5
    let role := if u8 r.args 6 = 1 then PollRole.temperature else .general
    let old := (s.bus.polls.getD j {}).entry
    let come := enable = true ∧ role = .temperature
    ∃ t, exec .pollSet s = .next t
      ∧ t.bus.polls[j]? = some
          { entry := { enable := enable, address := u8 r.args 2, register := r.args.getD 3 0, length := u8 r.args 4
                       period := period, role := role }
            countdown := if enable then period else 0
            due := false
            slot := { held := false, bytes := [], age := 0, failures := 0 } }
      ∧ (∀ i, i ≠ j → t.bus.polls[i]? = s.bus.polls[i]?) ∧ t.bus.polls.length = 8
      ∧ (come → t.lamp = { s.lamp with tempPresent := true, tempFails := 0 })
      ∧ (¬ come → old.enable = true → old.role = .temperature → t.lamp.tempPresent = false ∧ t.lamp.stale = true
          ∧ (s.lamp.stale = false → Reported 18 t))
      ∧ (¬ come → (old.enable = false ∨ old.role = .general) → t.lamp = s.lamp)
      ∧ (let goes := decide (¬ come) && old.enable && decide (old.role = .temperature) && !s.lamp.stale
          let gone := { s.lamp with tempPresent := false, stale := true }
          let lit := if s.cfg.floor = s.lamp.ceiling then (gone, [])
            else lampUpdate .running s.cfg.stillLevel { gone with ceiling := s.cfg.floor }
          (goes = true → t.lamp = lit.1)
          ∧ Writes ((if goes then .event (Event.tempStale .noEntry s.lamp.tempAge) :: events lit.2 else [])
              ++ [.answer r.slot (if u8 r.args 5 = 0 then 1 else 0) j 0]) (released s) t)
      ∧ HoldsAnswer r.slot (if u8 r.args 5 = 0 then 1 else 0) j 0 t
      ∧ SameOutside [slotHead r.slot, eventList s] s t ∧ SameListButEvents s t
      ∧ t.bus = { s.bus with polls := t.bus.polls, inHand := s.bus.inHand.map fun x => match x.owner with
          | .poll i _ => if i = j then { x with owner := .poll i true } else x
          | .gain _ => x
          | .host _ => x }
      ∧ t = { s with mem := t.mem, attention := t.attention, list := t.list, lamp := t.lamp, bus := t.bus }

/-- BUS_RESET starts a recovery attempt, or joins the attempt of an earlier BUS_RESET: the work in hand, a host
transfer, a gain write or a poll, ends BUS_FAULT with the counts and events of such an end, the pending gain update is
dropped, and the slot waits for the attempt. The request is the one the scan holds in hand (the model's hand-over, log
entry 4). Model's choices: the number of bytes acknowledged is an operand (log entry 21), POLL_FAILING is written
before the lamp unit's TEMP_STALE (log entry 39) and TEMP_STALE before the lamp update's event (log entry 9), and
joined BUS_RESETs wait in taking order (log entry 41). -/
def Obligations.BusResetStartsRecovery : Prop :=
  ∀ (acked : Nat) (r : Request) (s : State), InHand 15 r s →
    (s.bus.state = .recovery → s.bus.afterReset = true →
      exec (.busReset acked) s = .next { released s with bus := { s.bus with resets := s.bus.resets ++ [r.slot] } })
    ∧ ((s.bus.state = .idle ∨ s.bus.state = .fault ∨ (s.bus.state = .recovery ∧ s.bus.afterReset = false)) →
        s.bus.pendingGain = none →
        exec (.busReset acked) s = .next { released s with
          bus := { s.bus with retries := 0, state := .recovery, afterReset := true, busyTimer := none, resets := [r.slot] } })
    ∧ (∀ (x : Txn) (h : HostTransfer), (s.bus.state = .waitFree ∨ s.bus.state = .active) →
        s.bus.inHand = some x → x.owner = .host h → h.slot + 64 ≤ 2 ^ 32 →
        ∃ t, exec (.busReset acked) s = .next t
          ∧ HoldsAnswer h.slot 15 0 (if s.bus.state = .active then acked else 0) t
          ∧ t.bus = { s.bus with
              inHand := none, retries := 0, state := .recovery, afterReset := true, busyTimer := none, resets := [r.slot]
              pendingGain := none, queue := s.bus.queue.tail }
          ∧ (s.bus.pendingGain.isSome = true → t.exposure.retry = true ∧ t.exposure.failures = s.exposure.failures)
          ∧ SameOutside [slotHead h.slot] s t
          ∧ t = { released s with mem := t.mem, attention := t.attention, exposure := t.exposure, bus := t.bus })
    ∧ (∀ x : Txn, (s.bus.state = .waitFree ∨ s.bus.state = .active) → s.bus.inHand = some x →
        let reset := { s.bus with
          inHand := none, retries := 0, state := .recovery, afterReset := true, busyTimer := none, resets := [r.slot]
          pendingGain := none }
        (∀ v, x.owner = .gain v → s.exposure.gws = .writing →
          (s.exposure.behind = true ↔ s.bus.pendingGain.isSome = true) →
          let e := s.exposure
          let failures := min 255 (e.failures + 1)
          ∃ t, exec (.busReset acked) s = .next t
            ∧ Writes (if failures = 3 then [.event (Event.gainWriteFailed v e.gainInEffect .busFault)] else [])
                (released s) t
            ∧ t = { released s with
                mem := t.mem, attention := t.attention, list := t.list, bus := reset
                exposure := { e with
                  failures := failures, retry := true, gws := .idle, handedGain := none, behind := false } })
        ∧ (∀ j p, x.owner = .poll j false → s.bus.polls[j]? = some p → s.bus.pendingGain = none →
          let failures := min 255 (p.slot.failures + 1)
          let lamp := if p.entry.role = .temperature then tempMissed .running s.cfg s.lamp else (s.lamp, [])
          ∃ t, exec (.busReset acked) s = .next t
            ∧ Writes ((if failures = 4 then [.event (Event.pollFailing j p.entry.address .busFault)] else [])
                ++ events lamp.2) (released s) t
            ∧ t = { released s with
                mem := t.mem, attention := t.attention, list := t.list, lamp := lamp.1
                bus := { reset with
                  polls := s.bus.polls.set j { p with slot := { p.slot with failures := failures } } } }))

/-! ### Capture and playout -/

/-- CAPTURE_DUE in WAITING: the first store in ring order after the selection pointer that is neither held nor pinned
takes the next sequence and the trigger starts, with its header written and the lamps updated; with none the frame is
deferred, once reported with the held and pinned stores. A boost frame waits exactly while the oldest still order is
unclaimed and no copy is under way. A STROBE output runs from the trigger start. Model's choice: the due moment is
kept with the plan and its coming is the command (log entry 2). -/
def Obligations.CaptureDueTriggersOrDefers : Prop :=
  ∀ (p : FramePlan) (s : State), s.capture.trig = .waiting → s.capture.plan = some p → Working s → RegionsOk s →
    s.cfg.stores ≤ s.ring.length →
    let now := max s.now p.dueAt
    let start := match s.capture.selPtr with
      | none => 0
      | some q => q + 1
    let free := fun k => (storeAt s k).hold = false ∧ (storeAt s k).playPin = false ∧ (storeAt s k).stillPin = false
    let seq := s.capture.seq + 1
    (boostWaiting s.still = true ↔ s.still.copy = none ∧ ∃ o ∈ s.still.orders.head?, o.claimed = false)
    ∧ (∀ k, selectStore s = some k ↔ ∃ i < s.cfg.stores, k = (start + i) % s.cfg.stores ∧ free k
        ∧ ∀ j < i, ¬ free ((start + j) % s.cfg.stores))
    ∧ (selectStore s = none ↔ ∀ k < s.cfg.stores, ¬ free k)
    ∧ (∀ pin : RingEntry → Bool, ((∀ k < s.cfg.stores, pin (storeAt s k) = false) → pinIndex s pin = 0xFF)
        ∧ ∀ k < s.cfg.stores, pin (storeAt s k) = true → (∀ j < k, pin (storeAt s j) = false) → pinIndex s pin = k)
    ∧ (∀ k, selectStore s = some k →
      ∃ t, exec .captureDue s = .next t
        ∧ t.capture = { s.capture with
            trig := .exposing, seq := seq, selPtr := some k, prevTrigger := some (now, p.tCap), deferralOpen := false
            deadline := some (now + p.t + s.cfg.tRo + s.cfg.guardMs * 1000)
            frame := some { store := k, seq := seq, gain := s.exposure.gainInEffect
                            levels := t.lamp.channels.map (·.applied), autoLevel := t.lamp.lApp } }
        ∧ t.ring = s.ring.set k { storeAt s k with state := .filling, seq := seq, hold := false }
        ∧ (Apart (storeHeader s k) (eventList s) →
            Memory.readList t.mem (storeBase s.cfg k) 2 = [1, 0]
            ∧ Memory.readList t.mem (storeBase s.cfg k + 4) 4 = le32 seq.toNat
            ∧ Memory.readList t.mem (storeBase s.cfg k + 40) 4 = le32 s.playout.frames.toNat)
        ∧ Writes (startWrites k p s) s t ∧ t.lamp = { (startLamp p s).1 with strobe := true }
        ∧ t.lamp.dutyT = p.t ∧ t.lamp.dutyCap = p.tCap ∧ t.lamp.wantedL = p.level ∧ t.lamp.strobe = true
        ∧ t.lamp.boost = (s.lamp.boost || p.boost) ∧ trigPin t = true
        ∧ (∀ (i : Nat) (c : Channel), t.lamp.channels[i]? = some c → c.mode = .strobe → lampPin t i = some c.applied)
        ∧ SameOutside [storeHeader s k, eventList s] s t ∧ SameListButEvent s t
        ∧ t = { s with
                now := now, mem := t.mem, attention := t.attention, list := t.list, capture := t.capture, ring := t.ring
                lamp := t.lamp, still := t.still })
    ∧ (selectStore s = none →
        ∃ t, exec .captureDue s = .next t
          ∧ t.capture = { s.capture with trig := .deferred, deferralOpen := true }
          ∧ (s.capture.deferralOpen = false → Reported 11 t)
          ∧ Writes (if s.capture.deferralOpen then [] else [.event (deferral s)]) s t
          ∧ SameOutside [eventList s] s t ∧ SameListButEvent s t
          ∧ t = { s with now := now, mem := t.mem, attention := t.attention, list := t.list, capture := t.capture })

/-- TRIGGER_END: TRIG falls at trigger start plus t, the chainage and the temperature are sampled into the frame, the
strobe window closes, a boost ends with a lamp update, READOUT. A STROBE output is low from then on. Model's choice:
the moment is trigger start plus t and its coming is the command (log entry 2). -/
def Obligations.TriggerEndSamples : Prop :=
  ∀ (p : FramePlan) (f : Frame) (start cap : Nat) (s : State), s.capture.trig = .exposing → s.capture.plan = some p →
    s.capture.frame = some f → s.capture.prevTrigger = some (start, cap) → Working s → RegionsOk s →
    ∃ t f', exec .triggerEnd s = .next t
      ∧ t.capture = { s.capture with trig := .readout, frame := some f' }
      ∧ f' = { f with
          chainage := s.chainage.x, held := decide (s.chainage.run = .stopped) || s.chainage.held
          saturated := s.chainage.saturated, temp := s.lamp.temp, burnText := f'.burnText }
      ∧ (s.cfg.burnIn = true → f'.burnText = stampText f'.chainage f'.held f'.saturated)
      ∧ t.lamp.strobe = false ∧ t.lamp.boost = false ∧ trigPin t = false
      ∧ (∀ (i : Nat) (c : Channel), t.lamp.channels[i]? = some c → c.mode = .strobe → lampPin t i = none)
      ∧ (s.lamp.boost = false → t.lamp = { s.lamp with strobe := false } ∧ t.mem = s.mem)
      ∧ (s.lamp.boost = true →
          let ended := lampUpdate s.part s.cfg.stillLevel { s.lamp with strobe := false, boost := false }
          t.lamp = ended.1 ∧ Writes (events ended.2) s t)
      ∧ t.lamp.dutyT = s.lamp.dutyT ∧ t.lamp.dutyCap = s.lamp.dutyCap
      ∧ SameOutside [eventList s] s t ∧ SameListButEvent s t
      ∧ t = { s with
              now := max s.now (start + p.t), mem := t.mem, attention := t.attention, list := t.list
              capture := t.capture, lamp := t.lamp }

/-- FRAME_VALID_RISE in READOUT begins the frame's picture; each whole PIXEL_LINE of it is stored at its line's place
and metered, under the burnt-in text where burn-in is on: in the stamp field a byte is the palette entry's blend
unless its index is keyed, elsewhere the byte received. Data outside an accepted picture is written nowhere: in IDLE,
WAITING, DEFERRED and EXPOSING the rise and the fall of frame-valid and a line change nothing but the moment, and in
READOUT a line or a fall before the picture or after its last line. Model's choice: a line is one command, its last
line does not complete the frame (log entry 10); a short line is stated with the abandonments (log entry 19). -/
def Obligations.PictureLinesStored : Prop :=
  (∀ (cfg : Cfg) (o : Overlay) (text : List Byte) (line i : Nat) (received : Byte),
    let x := i / 2
    let col := x / (16 * cfg.scale)
    let inField := line / (24 * cfg.scale) = cfg.stampRow ∧ cfg.stampCol ≤ col ∧ col < cfg.stampCol + 10
    let lit := glyphBit o.glyphs (text.getD (col - cfg.stampCol) 0x20).toNat (line % (24 * cfg.scale) / cfg.scale)
      (x % (16 * cfg.scale) / cfg.scale)
    let index : BitVec 4 := if lit then cfg.stampAttr.extractLsb' 0 4 else cfg.stampAttr.extractLsb' 4 4
    let e := o.palette.getD index.toNat {}
    let ov := if i % 2 = 1 then e.y else if x % 2 = 0 then e.cb else e.cr
    let burnt := burnByte cfg o text line i received
    (¬ inField → burnt = received)
    ∧ (inField → (index ^^^ o.key) &&& o.care = 0 → burnt = received)
    ∧ (inField → (index ^^^ o.key) &&& o.care ≠ 0 →
        burnt = byte ((e.opacity * ov.toNat + (16 - e.opacity) * received.toNat + 8) / 16)))
  ∧ (∀ (m : Nat) (bytes : List Byte) (s : State),
    s.capture.trig ≠ .readout ∨ s.capture.frame = none ∨ s.capture.plan = none →
    exec .frameValidRise s = .next s ∧ exec (.frameValidFall m) s = .next { s with now := max s.now m }
      ∧ exec (.pixelLine m bytes) s = .next { s with now := max s.now m })
  ∧ ∀ (m : Nat) (bytes : List Byte) (p : FramePlan) (f : Frame) (s : State), s.capture.plan = some p →
    s.capture.frame = some f →
    (s.capture.trig = .readout →
      exec .frameValidRise s = .next
        { s with capture := { s.capture with frame := some { f with picture := true } } })
    ∧ (f.picture = false ∨ s.cfg.height ≤ f.lines →
        exec (.pixelLine m bytes) s = .next { s with now := max s.now m }
        ∧ exec (.frameValidFall m) s = .next { s with now := max s.now m })
    ∧ (s.capture.trig = .readout → f.picture = true → f.lines < s.cfg.height → Working s → RegionsOk s →
        f.store < s.cfg.stores → 2 * s.cfg.width ≤ bytes.length →
        let base := storeBase s.cfg f.store + 64 + f.lines * s.cfg.width * 2
        let inWindow := s.cfg.winTop ≤ f.lines ∧ f.lines < s.cfg.winTop + s.cfg.winHeight
        let luma := ((List.range s.cfg.winWidth).map fun i => u8 bytes (2 * (s.cfg.winLeft + i) + 1)).sum
        ∃ t, exec (.pixelLine m bytes) s = .next t
          ∧ (s.cfg.burnIn = false → Memory.readList t.mem base (2 * s.cfg.width) = bytes.take (2 * s.cfg.width))
          ∧ (s.cfg.burnIn = true → ∀ i < 2 * s.cfg.width, Memory.read t.mem (base + i)
              = burnByte s.cfg s.overlay f.burnText f.lines i (bytes.getD i 0))
          ∧ SameOutside [(base, 2 * s.cfg.width)] s t
          ∧ t = { s with
                  now := max s.now m, mem := t.mem
                  capture := { s.capture with frame := some { f with
                    lines := f.lines + 1, meterSum := f.meterSum + (if inWindow then luma else 0) } } })

/-- A frame in READOUT short of its lines is abandoned at a short line, an early fall of frame-valid, the capture
deadline, or as the third in a row: what the short line gave is stored, the counters move, LOS opens at the third, its
store is VOID unless taken again, in RUNNING the next plan is fixed and waits, triggers or is deferred, and in HALTING
the part is HALTED with its last work. An order that the abandoned boost frame had claimed is lost, and an order that
waits claims the next frame. One whole next state is given. Model's choices: SENSOR_LOS names the third abandonment in
a row (log entry 3), FRAME_COMPLETE is a command of its own, so a frame with all its lines is not abandoned here (log
entry 10), what is stored of a short line (log entry 19), and the order of the blocks (log entry 9). -/
def Obligations.AbandonmentVoidsStore : Prop :=
  ∀ (f : Frame) (p : FramePlan) (s : State), s.capture.trig = .readout → s.capture.frame = some f →
    s.capture.plan = some p → f.lines < s.cfg.height → f.store < s.cfg.stores →
    s.cfg.stores ≤ s.ring.length → (s.part = .running ∨ s.part = .halting) → RegionsOk s →
    BoostFrameHeld s →
    (∀ o slot, s.still.orders.head? = some o → o.origin = .snapshot slot → slot + 64 ≤ 2 ^ 32) →
    let third := min 255 (s.capture.abandons + 1) = 3 ∧ s.capture.los = false
    let slots := if p.boost then s.still.orders.head?.toList.filterMap fun o => o.origin.slot?.map slotHead else []
    let Abandons := fun (c : Instr) (now : Nat) (line : List (Nat × List Byte)) =>
      let writes := line.map (fun w => .store w.1 w.2) ++ [.store (storeBase s.cfg f.store) [0]]
        ++ if third then [.event (Event.sensorLos f.seq)] else []
      let voided := { writes.foldl act s with
        now := now, ring := s.ring.set f.store { storeAt s f.store with state := .void }
        capture := { s.capture with
          trig := .idle, plan := none, frame := none, deadline := none, abandoned := s.capture.abandoned + 1
          abandons := min 255 (s.capture.abandons + 1), los := s.capture.los || decide third } }
      let planned := if s.part = .running then nextFrame voided else voided
      let lost := match p.boost, planned.still.orders with
        | true, o :: os => if o.claimed then act { planned with still := { planned.still with orders := os } }
              (lostOrder o.origin 18 0 2 0xFF f.seq) else planned
        | _, _ => planned
      ∃ t, exec c s = .next t ∧ t = settled lost ∧ (third → t.capture.los = true ∧ Reported 12 t)
        ∧ (s.part = .halting → t.capture.trig = .idle ∧ (inFlight t = false ↔ t.part = .halted))
        ∧ (t.capture.trig ≠ .exposing → Apart (storeHeader s f.store) (eventList s) →
            (∀ a ∈ slots, Apart (storeHeader s f.store) a) → Memory.read t.mem (storeBase s.cfg f.store) = 0)
        ∧ SameOutside (eventList s :: (List.range s.cfg.stores).map (storeHeader s) ++ slots
            ++ line.map fun w => (w.1, w.2.length)) s t
        ∧ SameListButEvent s t
    (∀ m, f.picture = true → Abandons (.frameValidFall m) (max s.now m) [])
    ∧ (∀ d, s.capture.deadline = some d → Abandons .captureDeadlineExpiry (max s.now d) [])
    ∧ (∀ m, s.capture.abandons = 2 → s.capture.los = false → Abandons (.sensorLos m) (max s.now m) [])
    ∧ (∀ (m : Nat) (bytes : List Byte), f.picture = true → bytes.length / 2 < s.cfg.width →
        let kept := bytes.take (2 * (bytes.length / 2))
        Abandons (.pixelLine m bytes) (max s.now m)
          [(storeBase s.cfg f.store + 64 + f.lines * s.cfg.width * 2,
            if s.cfg.burnIn then kept.mapIdx fun i b => burnByte s.cfg s.overlay f.burnText f.lines i b else kept)])
    ∧ (f.picture = false → ∀ m bytes, exec (.frameValidFall m) s = .next { s with now := max s.now m }
        ∧ exec (.pixelLine m bytes) s = .next { s with now := max s.now m })

/-- FRAME_COMPLETE gives one whole next state: the header's fields, with the flags STILL, BURNED, CHAIN_HELD and
CHAIN_SAT in bits 0 to 3, and COMPLETE are written, the counters move, LOS ends, the next plan is made in RUNNING from
the exposure plan in force before the report and waits, triggers or is deferred, the loop takes the report and the
head bus its gain. A boost frame's claimed order leaves the queue: the first usable entry of the still table is
FILLING and its copy begins with the header, and with none the pin is released and the SNAPSHOT is answered NO_BUFFER
or STILL_MISSED written. In HALTING the part is HALTED with its last work. Model's choices: the completion is a
command of its own (log entry 10), the order of the blocks within it (log entry 9), the pin's release before a failed
selection's report (log entry 43), which bytes of the table's entry are written (log entry 45), and the order of the
header's fields before COMPLETE (log entry 56). -/
def Obligations.FrameCompleteMarksStore : Prop :=
  ∀ (m : Nat) (f : Frame) (p : FramePlan) (s : State), s.capture.trig = .readout → s.capture.frame = some f →
    s.capture.plan = some p → f.picture = true → f.lines = s.cfg.height → f.store < s.cfg.stores →
    s.cfg.stores ≤ s.ring.length → f.levels.length = 6 → (s.part = .running ∨ s.part = .halting) → RegionsOk s →
    BusReachable s → BoostFrameHeld s →
    (∀ o slot, s.still.orders.head? = some o → o.origin = .snapshot slot → slot + 64 ≤ 2 ^ 32) →
    let base := storeBase s.cfg f.store
    let mean := f.meterSum / (s.cfg.winWidth * s.cfg.winHeight)
    let bit := fun b : Bool => if b then 1 else 0
    -- STILL, BURNED, CHAIN_HELD, CHAIN_SAT
    let flags := byte (bit p.boost + 2 * bit s.cfg.burnIn + 4 * bit f.held + 8 * bit f.saturated)
    let report : Report := { seq := f.seq, t := p.t, gain := f.gain, level := f.autoLevel, mean := mean
                             boost := p.boost, los := s.capture.los }
    let writes := [.store (base + 2) [flags, byte mean],
      .store (base + 8) (le32i f.chainage ++ le32 p.t ++ le16 f.gain ++ le16 f.autoLevel ++ f.levels.flatMap le16
        ++ le32 p.tCap ++ le16i (f.temp.getD (-32768))), .store base [2]]
      ++ if s.capture.los then [Act.event (Event.sensorRestored f.seq)] else []
    let claimed := s.still.orders.head?.any fun o => o.claimed
    let entry := storeAt s f.store
    let done := { writes.foldl act s with
      now := max s.now m
      ring := s.ring.set f.store { entry with state := .complete, stillPin := entry.stillPin || (p.boost && claimed) }
      capture := { s.capture with
        trig := .idle, plan := none, frame := none, deadline := none, completed := s.capture.completed + 1
        abandons := 0, los := false } }
    let planned := if s.part = .running then nextFrame done else done
    let reported := served (exposureReport report planned)
    -- the still unit's part in the completion of a boost frame, on the state `v` it finds
    let size := 64 + s.cfg.width * s.cfg.height * 2
    let entryAt := fun i => s.areaBase + 0x200 + 16 * i
    let field := fun (v : State) (a : Nat) => u32 (Memory.readList v.mem a 4) 0
    let empty := fun (v : State) (i : Nat) => decide ((Memory.read v.mem (entryAt i)).toNat = 1)
    let usable := fun (v : State) (i : Nat) => empty v i && decide (size ≤ field v (entryAt i + 8))
      && decide (field v (entryAt i + 4) % 64 = 0)
    let select := fun v => (List.range 8).find? (usable v)
    let stilled := fun (o : StillOrder) (v : State) => match select v with
      | some i =>
        let w := [Act.store (entryAt i + 12) (le32 f.seq.toNat), .store (entryAt i) [2]].foldl act v
        { act w (.store (field v (entryAt i + 4)) (Memory.readList w.mem base 64)) with
          still := { v.still with copy := some { origin := o.origin, entry := i, buffer := field v (entryAt i + 4)
                                                 store := f.store, seq := f.seq, lines := 0 } } }
      | none =>
        let freed := { v with ring := v.ring.set f.store { storeAt v f.store with stillPin := false } }
        act (retried freed) (match (List.range 8).find? (empty v) with
          | none => lostOrder o.origin 8 0 3 0xFF f.seq
          | some i => lostOrder o.origin 8 1 4 i f.seq)
    let ended := match p.boost, reported.still.orders with
      | true, o :: os => if o.claimed then stilled o { reported with still := { reported.still with orders := os } }
          else reported
      | _, _ => reported
    (p.boost = true → ∀ i, select reported = some i → field reported (entryAt i + 4) + 64 ≤ 2 ^ 32) →
    ∃ t, exec (.frameComplete m) s = .next t ∧ t = settled ended ∧ (s.capture.los = true → Reported 13 t)
      ∧ t.capture.completed = s.capture.completed + 1 ∧ t.exposure.last = some report
      ∧ (s.part = .running → ∃ q, t.capture.plan = some q ∧ q.t = s.exposure.planT ∧ q.level = s.exposure.planL
          ∧ q.boost = boostWaiting s.still)
      ∧ (p.boost = false → BusQuiet s → t.capture.trig ≠ .exposing → Apart (storeHeader s f.store) (eventList s) →
          Memory.read t.mem base = 2
          ∧ Memory.read t.mem (base + 2) = flags
          ∧ Memory.read t.mem (base + 3) = byte mean ∧ Memory.readList t.mem (base + 8) 4 = le32i f.chainage
          ∧ Memory.readList t.mem (base + 12) 4 = le32 p.t ∧ Memory.readList t.mem (base + 16) 2 = le16 f.gain
          ∧ Memory.readList t.mem (base + 18) 2 = le16 f.autoLevel
          ∧ Memory.readList t.mem (base + 20) 12 = f.levels.flatMap le16
          ∧ Memory.readList t.mem (base + 32) 4 = le32 p.tCap
          ∧ Memory.readList t.mem (base + 36) 2 = le16i (f.temp.getD (-32768)))
      ∧ (p.boost = false → BusQuiet s →
          SameOutside (eventList s :: (List.range s.cfg.stores).map (storeHeader s)) s t)
      ∧ SameListButEvent s t

/-- STILL_COPY_END: the lines of the picture still to be moved follow into the buffer, the entry is FILLED, the pin
released, which can end a deferral, STILL set, and a SNAPSHOT answered OK; in HALTING the part is HALTED with its last
work. Until then a step on an empty queue moves one line. Model's choices: the header is copied at the selection, and
the picture line by line, a line at each idle step and what is left at the end (log entries 1 and 11); a deferred
capture unit acts on the pin's release before STILL and the completion (log entry 9). -/
def Obligations.StillCopyEndFillsEntry : Prop :=
  ∀ (m : Nat) (c : StillCopy) (s : State), s.still.copy = some c → (s.part = .running ∨ s.part = .halting) →
    RegionsOk s → c.store < s.cfg.stores → c.entry < 8 → s.cfg.stores ≤ s.ring.length →
    let line := s.cfg.width * 2
    let size := s.cfg.height * line
    let from_ := storeBase s.cfg c.store + 64
    let entry := (s.areaBase + 0x200 + 16 * c.entry, 16)
    let move := fun (mem : List Host.Cell) (l : Nat) =>
      storeBytes mem (c.buffer + 64 + l * line) (Memory.readList mem (from_ + l * line) line)
    c.buffer + 64 + size ≤ 2 ^ 32 → Apart (c.buffer + 64, size) entry →
    (∀ slot, c.origin = .snapshot slot → slot + 64 ≤ 2 ^ 32) →
    let moved := { s with
      now := max s.now m, mem := ((List.range (s.cfg.height - c.lines)).map (c.lines + ·)).foldl move s.mem }
    let freed := retried { act moved (.store entry.1 [3]) with
      ring := s.ring.set c.store { storeAt s c.store with stillPin := false } }
    let said := [Act.attention attStill] ++ match c.origin with
      | .snapshot slot => [.answer slot 0 c.entry c.seq.toNat]
      | _ => []
    (∃ t, exec (.stillCopyEnd m) s = .next t
      ∧ t = settled { said.foldl act freed with still := { freed.still with copy := none } }
      ∧ t.attention.getLsbD 2 = true
      ∧ (s.part = .running → s.capture.trig ≠ .deferred → Apart (c.buffer + 64, size) (from_, size) →
          (∀ slot, c.origin = .snapshot slot → Apart (slotHead slot) (c.buffer + 64, size)
            ∧ Apart (slotHead slot) entry) →
          (∀ i < size, c.lines * line ≤ i →
            Memory.read t.mem (c.buffer + 64 + i) = Memory.read s.mem (from_ + i))
          ∧ Memory.read t.mem (s.areaBase + 0x200 + 16 * c.entry) = 3)
      ∧ (s.part = .running → s.capture.trig ≠ .deferred → (c.origin = .mark ∨ c.origin = .stop) →
          SameOutside [(c.buffer + 64, size), entry] s t)
      ∧ (∀ slot, s.part = .running → s.capture.trig ≠ .deferred → c.origin = .snapshot slot →
          HoldsAnswer slot 0 c.entry c.seq.toNat t
          ∧ SameOutside [(c.buffer + 64, size), entry, slotHead slot] s t))
    ∧ (s.pending = [] →
        (c.lines < s.cfg.height → step s = .next { s with
          mem := move s.mem c.lines, still := { s.still with copy := some { c with lines := c.lines + 1 } } })
        ∧ (s.cfg.height ≤ c.lines → step s = .next s))

/-! ### Lamps and exposure -/

/-- The thermal ceiling is the floor while the reading is stale or missing, 0 in the cut, 1023 up to T_derate and the
straight line of R82 above it. TEMP_STALE: a stale condition that arises while the flag is clear sets it, is reported,
and brings the ceiling to the floor with a lamp update. Model's choices: TEMP_STALE names the happening that completes
the condition (log entry 3), and its event is written before the lamp update's (log entry 9). -/
def Obligations.StaleBringsCeilingToFloor : Prop :=
  (∀ (cfg : Cfg) (l : Lamp),
    (l.stale = true ∨ l.temp = none → thermalCeiling cfg l = cfg.floor)
    ∧ ∀ t, l.stale = false → l.temp = some t →
      (l.cut = true → thermalCeiling cfg l = 0)
      ∧ (l.cut = false → t ≤ cfg.tDerate → thermalCeiling cfg l = 1023)
      ∧ (l.cut = false → cfg.tDerate < t → cfg.floor ≤ 1023 → t < cfg.tCut → (thermalCeiling cfg l : Int)
          = 1023 - Int.fdiv ((1023 - cfg.floor) * (t - cfg.tDerate)) (cfg.tCut - cfg.tDerate)))
  ∧ ∀ (cause : StaleCause) (s : State), Working s → RegionsOk s → s.lamp.stale = false →
    (cause = .noEntry → s.lamp.tempPresent = false) → (cause = .failures → s.lamp.tempFails = 3) →
    (cause = .age → s.lamp.tempAge = 100 ∧ s.playout.timer.isSome = true) →
    ∃ t, exec (.tempStale cause) s = .next t ∧ t.lamp.stale = true ∧ t.lamp.ceiling = s.cfg.floor ∧ Reported 18 t
      ∧ (s.lamp.ceiling ≠ s.cfg.floor → ∀ c ∈ t.lamp.channels, c.applied ≤ s.cfg.floor)
      ∧ t.lamp.temp = s.lamp.temp ∧ t.lamp.cut = s.lamp.cut ∧ t.lamp.tempPresent = s.lamp.tempPresent
      ∧ t.lamp.tempFails = (if cause = .failures then 4 else s.lamp.tempFails)
      ∧ t.lamp.tempAge = (if cause = .age then 101 else s.lamp.tempAge)
      ∧ (let stale := { s.lamp with stale := true, tempFails := t.lamp.tempFails, tempAge := t.lamp.tempAge }
          let lit := if s.lamp.ceiling = s.cfg.floor then (stale, [])
            else lampUpdate s.part s.cfg.stillLevel { stale with ceiling := s.cfg.floor }
          t.lamp = lit.1 ∧ Writes (.event (Event.tempStale cause t.lamp.tempAge) :: events lit.2) s t)
      ∧ SameOutside [eventList s] s t ∧ SameListButEvent s t
      ∧ t = { s with mem := t.mem, attention := t.attention, list := t.list, lamp := t.lamp }

/-- Every failed end of a gain write or of a poll: no acknowledgement, a bus that is stuck, arbitration lost for good,
or the busy limit, in RUNNING, HALTING and FAULTED. The failures are counted; the third failed gain write in a row
(GAIN_WRITE_FAILED) and the fourth failed poll (POLL_FAILING) are reported; the gain in effect and the bytes held
stay; a TEMPERATURE poll's failure goes on to the lamp unit; a BUS_STUCK is followed by a recovery; an arbitration
loss below the retry limit waits for the bus. The unit then looks for work, which finds the monitor FREE after an
expiry of the busy timer that falls together with a stop; in HALTING the part is HALTED with its last work. Model's
choices: the two commands name the transaction end that reaches the count (log entry 3), the number of bytes
acknowledged is an operand (log entry 21), the owner acts before the unit looks for work (log entry 9), an operand
says that a stop falls together with the expiry of the busy timer (log entry 60), and POLL_FAILING is written before
the lamp unit's TEMP_STALE (log entry 39) and TEMP_STALE before the lamp update's event (log entry 9). -/
def Obligations.FailuresCountedAndReported : Prop :=
  ∀ (m acked e : Nat) (x : Txn) (s : State),
    ((s.part = .running ∨ s.part = .halting) ∧ RegionsOk s ∨ s.part = .faulted) → BusReachable s →
    s.bus.inHand = some x → (∀ h, x.owner ≠ .host h) →
    let busy := s.bus.monitorBusy
    let lost := s.cfg.retryLimit ≤ s.bus.retries ∨ s.part = .faulted
    let Fails := fun (c : Instr) (o : BusOutcome) (next : BusState) (monitor : Bool) (moment : Nat) =>
      exec c s = .next (settled (served (failed x.owner o next
        { s with now := max s.now moment, bus := { s.bus with monitorBusy := monitor } })))
    (s.bus.state = .active →
      Fails (.busStuck m acked) .busStuck .recovery busy m
      ∧ (∀ read, (acked = 0 ∨ acked = x.write.length ∧ x.readLen ≠ 0) →
          Fails (.busTransactionEnd m .noAckAddr acked read) .noAckAddr .idle busy m)
      ∧ (∀ read, acked < x.write.length → Fails (.busTransactionEnd m .noAckData acked read) .noAckData .idle busy m)
      ∧ (lost → Fails (.arbitrationLost m acked) .arbLost .idle true m)
      ∧ (¬ lost → exec (.arbitrationLost m acked) s = .next { s with
          now := max s.now m
          bus := { s.bus with
            monitorBusy := true, retries := s.bus.retries + 1, state := .waitFree
            busyTimer := some (max s.now m + s.cfg.busyMs * 1000) } }))
    ∧ (∀ stop, s.bus.state = .waitFree → s.bus.busyTimer = some e →
        Fails (.busBusyTimeout stop) .busyTimeout .idle (busy && !stop) e)
    ∧ (∀ o, s.bus.state = .active ∧ (o = .noAckAddr ∨ o = .noAckData ∨ o = .busStuck ∨ o = .arbLost ∧ lost)
          ∨ s.bus.state = .waitFree ∧ o = .busyTimeout →
        let next := if o = .busStuck then BusState.recovery else .idle
        (∀ v, x.owner = .gain v → s.exposure.failures = 2 →
          Fails (.gainWriteFailed m o) o next (busy || o == .arbLost) m
          ∧ ∃ t, exec (.gainWriteFailed m o) s = .next t ∧ (s.part ≠ .faulted → Reported 21 t) ∧ t.exposure.retry = true
            ∧ t.exposure.gainInEffect = s.exposure.gainInEffect ∧ t.exposure.planG = s.exposure.planG)
        ∧ ∀ j, x.owner = .poll j false → (s.bus.polls.getD j {}).slot.failures = 3 →
          Fails (.pollFailing m o) o next (busy || o == .arbLost) m
          ∧ ∃ t, exec (.pollFailing m o) s = .next t ∧ (s.part ≠ .faulted → Reported 20 t))

/-- The loop runs on a frame that is neither a boost frame nor one of a loss of sensor, in RUNNING and AUTO; within
the dead band it keeps its plan; else it corrects the measured product by the damping, truncated toward zero, brings
it within its bounds, and shares it out by the first case of R99's table. The plan stays within the bounds in force
and replaces the one before, and the gain is handed by R101's table. -/
def Obligations.AllocationByCases : Prop :=
  ∀ (e : Exposure) (lCap p : Nat), 0 < e.tPref → 0 < e.tMax →
    let lo := min e.lMin lCap
    let up := fun a b : Nat => if a % b = 0 then a / b else a / b + 1
    let la := up p e.tPref
    let tb := up p lCap
    (lCap = 0 → allocate e lCap p = ⟨0, e.tMax, e.gMax⟩)
    ∧ (0 < lCap → lo ≤ la → la ≤ lCap → allocate e lCap p = ⟨la, e.tPref, 256⟩)
    ∧ (0 < lCap → la < lo → allocate e lCap p = ⟨lo, max e.tMin (p / lo), 256⟩)
    ∧ (0 < lCap → lCap < la → tb ≤ e.tMax → allocate e lCap p = ⟨lCap, tb, 256⟩)
    ∧ (0 < lCap → lCap < la → e.tMax < tb →
        allocate e lCap p = ⟨lCap, e.tMax, min e.gMax (up (p * 256) (lCap * e.tMax))⟩)
    ∧ (∀ r : Report, 0 < e.tMin → e.tMin ≤ e.tPref → e.tPref ≤ e.tMax → 256 ≤ e.gMax →
        let plan := loopPlan e lCap r
        plan.level ≤ lCap ∧ e.tMin ≤ plan.t ∧ plan.t ≤ e.tMax ∧ 256 ≤ plan.gain ∧ plan.gain ≤ e.gMax)
    ∧ (∀ r : Report,
        let mean : Nat := max 1 r.mean
        let meas : Int := r.level * r.t * r.gain / 256
        let aim : Int := meas * e.target / mean
        let low : Int := if lo = 0 then e.tMin else lo * e.tMin
        let high : Int := lCap * e.tMax * e.gMax / 256
        (0 < lCap → loopPlan e lCap r
          = allocate e lCap (min high (max low (meas + Int.tdiv ((aim - meas) * e.damping) 16))).toNat)
        ∧ (lCap = 0 → loopPlan e lCap r = ⟨0, e.tMax, e.gMax⟩))
    ∧ (∀ (r : Report) (s : State), s.exposure = e →
        let taken := { s with exposure := { e with last := some r } }
        let runs := s.part = .running ∧ e.mode = .auto ∧ r.boost = false ∧ r.los = false
        let dead := |((max 1 r.mean : Nat) : Int) - e.target| ≤ e.tolerance
        let cap := min (min s.lamp.ceiling s.lamp.cap) e.lMax
        let plan := loopPlan e cap r
        let next := { taken.exposure with planL := plan.level, planT := plan.t, planG := plan.gain, lCap := cap }
        (¬ runs → exposureReport r s = taken)
        ∧ (runs → dead → exposureReport r s = if e.retry then handGain taken else taken)
        ∧ (runs → ¬ dead → ∃ t, t = handGain { taken with exposure := next }
            ∧ exposureReport r s = { t with exposure := { t.exposure with retry := false } }))
    ∧ (∀ s : State, s.exposure = e →
        let g := e.planG
        (s.part ≠ .running → handGain s = s)
        ∧ (s.part = .running →
          (e.gws = .idle → e.retry = false → g = e.gainInEffect → handGain s = s)
          ∧ (e.gws = .idle → (e.retry = true ∨ g ≠ e.gainInEffect) → handGain s = { s with
              exposure := { e with gws := .queued, handedGain := some g }
              bus := { s.bus with pendingGain := some g } })
          ∧ (e.gws ≠ .idle → e.handedGain = some g → handGain s = s)
          ∧ (e.gws = .queued → e.handedGain ≠ some g → g = e.gainInEffect → handGain s = { s with
              exposure := { e with gws := .idle, handedGain := none }, bus := { s.bus with pendingGain := none } })
          ∧ (e.gws = .queued → e.handedGain ≠ some g → g ≠ e.gainInEffect → handGain s = { s with
              exposure := { e with handedGain := some g }, bus := { s.bus with pendingGain := some g } })
          ∧ (e.gws = .writing → e.handedGain ≠ some g → handGain s = { s with
              exposure := { e with handedGain := some g, behind := true }
              bus := { s.bus with pendingGain := some g } })))

/-! ### Chainage and the tether link -/

/-- The candidate of a REEL: the signed 32-bit count difference times the scale, in Q16, rounded to the nearest mm
with a half away from zero, added or subtracted by the direction, and brought into range. -/
def Obligations.CandidateRoundsHalfAway : Prop :=
  ∀ (c : Chainage) (count : Word),
    let q : Int := (count - c.originCount).toInt * c.scale
    ∃ mm : Int, rawCandidate c count = c.baseX + (if c.forward then mm else -mm)
      ∧ 2 * |65536 * mm - q| ≤ 65536
      ∧ (2 * |65536 * mm - q| = 65536 → |q| < 65536 * |mm|)
      ∧ intoRange (rawCandidate c count) = min 9999994 (max (-999994) (rawCandidate c count))

/-- A message framed on the line is received whole by a hunting receiver, and with a CRC that differs it is dropped.
The CRC starts at 0xFFFF and takes each bit, the highest of a byte first, by the polynomial 0x1021. -/
def Obligations.FramedMessageReceived : Prop :=
  (crcOf [] = 0xFFFF ∧ crcOf [0x31, 0x32, 0x33, 0x34, 0x35, 0x36, 0x37, 0x38, 0x39] = 0x29B1
    ∧ ∀ (bytes : List Byte) (b : Byte), crcOf (bytes ++ [b]) = (List.range 8).foldl (fun (r : BitVec 16) i =>
        if r.getLsbD 15 ≠ b.getLsbD (7 - i) then (r <<< 1) ^^^ 0x1021 else r <<< 1) (crcOf bytes))
  ∧ ∀ (rx : Rx) (address kind : Byte) (payload : List Byte), rx.state = .hunt → payload.length ≤ 32 →
    rxBytes rx (wireBytes address kind payload) = ({}, [⟨address, kind, payload⟩])
    ∧ ∀ hi lo : Byte, hi ++ lo ≠ crcOf (address :: kind :: byte payload.length :: payload) →
        rxBytes rx (0xC5 :: address :: kind :: byte payload.length :: payload ++ [hi, lo]) = ({}, [])

/-- The filter discards by the first case of R130's table, and accepts every other good message. -/
def Obligations.FilterByTable : Prop :=
  ∀ (cfg : Cfg) (msg : LinkMsg),
    let k := msg.kind.toNat
    let n := msg.payload.length
    let defined := (1 ≤ k ∧ k ≤ 4) ∨ (0x20 ≤ k ∧ k ≤ 0x7F) ∨ k = 0xF0 ∨ k = 0xF1
    filterAccepts cfg msg = true ↔
      k ≠ 0 ∧ (msg.address = 0xFF ∨ (msg.address ^^^ cfg.unitMatch) &&& cfg.unitMask = 0)
      ∧ (cfg.management = true ∨ k < 0xF0) ∧ defined ∧ (k = 1 → n = 5) ∧ (k = 2 → n = 2)
      ∧ (k = 3 → 1 ≤ n ∧ n ≤ 32) ∧ (k = 4 ∨ k = 0xF0 ∨ k = 0xF1 → n = 0) ∧ (0x20 ≤ k ∧ k ≤ 0x7F → n ≤ 32)

/-- A REEL with the fault flag clear in run state RUNNING with the origin valid: accepted within the step limit, or as
a resync on the third rejection in a row, which CHAINAGE_RESYNC names; else rejected and only counted. At an accepted
candidate the marks crossed in the travel direction are reported and the next is armed beyond them, and the stop
target fires once; either may order a still. In FAULTED the same is done, but for events, the mark flash and the still
orders. Model's choice: a message is carried as the bytes of the line, run through the receiver (log entry 29).
CHAINAGE_RESYNC names the third rejection (log entry 3). -/
def Obligations.ReelAcceptedOrRejected : Prop :=
  ∀ (m : Nat) (address : Byte) (payload bytes : List Byte) (s : State), Arrives address 1 payload bytes s →
    (Working s ∧ RegionsOk s ∨ s.part = .faulted) →
    bitAt payload 4 0 = false → s.chainage.run = .running → s.chainage.originValid = true →
    let count := payload.take 4 |>.foldl (fun n b => 256 * n + b.toNat) 0
    let raw := rawCandidate s.chainage (BitVec.ofNat 32 count)
    let x := intoRange raw
    let near := (x - s.chainage.x).natAbs ≤ s.chainage.stepLimit
    let c := s.chainage
    let word : Word := BitVec.ofNat 32 count
    let up := if s.link.state = .up then [] else [Act.event (Event.linkUp s.link.state 1)]
    let way : Int := if c.travel = .increasing then 1 else -1
    let passed := fun y : Int => decide (0 ≤ way * (x - y))
    let crossed := c.nextMark.filter passed
    let number := fun y : Int => (Int.fdiv (way * (x - y)) c.markInterval + 1).toNat
    let fires := if c.fired then none else c.stopTarget.filter passed
    let marked := if crossed.isSome && c.autoMark then orderedStill .mark s else s.still
    let marks := match crossed with
      | none => []
      | some y => .event (Event.mark (y + way * (number y - 1 : Nat) * c.markInterval) (number y) x)
          :: if c.autoMark then orderWrites .mark s else []
    let stops := match fires with
      | none => []
      | some y => .event (Event.stopReached y x)
          :: if c.autoStop then orderWrites .stop { s with still := marked } else []
    ∃ t, exec (.reel m bytes) s = .next t ∧ t.link = heardLink m s
      ∧ (near ∨ 2 ≤ c.rejects →
          t.chainage = { c with
            x := x, lastCount := word, countReceived := true, saturated := decide (x ≠ raw), rejects := 0, held := false
            nextMark := match crossed with
              | none => c.nextMark
              | some y => some (y + way * number y * c.markInterval)
            fired := c.fired || fires.isSome
            reasons := { c.reasons with stopTarget := c.reasons.stopTarget || fires.isSome } }
          ∧ t.still = (if fires.isSome && c.autoStop then orderedStill .stop { s with still := marked } else marked)
          ∧ t.overlay = { s.overlay with flash :=
              if crossed.isSome && decide (s.part ≠ .faulted) then s.overlay.flashLen else s.overlay.flash }
          ∧ Writes ((if near then [] else [.event (Event.chainageResync c.x x word)])
              ++ (if c.held then [.event (Event.chainageResumed x word)] else []) ++ marks ++ stops)
              { up.foldl act s with chainage := { c with x := x } } t)
      ∧ (¬ near → c.rejects < 2 → Writes up s t ∧ t.still = s.still ∧ t.overlay = s.overlay)
      ∧ (near ∨ 2 ≤ s.chainage.rejects →
          t.chainage.x = x ∧ t.chainage.lastCount = BitVec.ofNat 32 count ∧ t.chainage.saturated = decide (x ≠ raw)
          ∧ t.chainage.rejects = 0 ∧ t.chainage.held = false ∧ t.chainage.countReceived = true
          ∧ (s.chainage.held = true → Working s → Reported 4 t)
          ∧ (∀ next, s.chainage.nextMark = some next → s.chainage.travel = .increasing → x < next →
              t.chainage.nextMark = some next)
          ∧ (∀ next, s.chainage.nextMark = some next → s.chainage.travel = .increasing → next ≤ x →
              0 < s.chainage.markInterval → (Working s → Reported 0 t ∧ t.overlay.flash = s.overlay.flashLen)
              ∧ ∃ k : Nat, t.chainage.nextMark = some (next + k * s.chainage.markInterval)
                  ∧ x < next + k * s.chainage.markInterval ∧ next + k * s.chainage.markInterval - s.chainage.markInterval ≤ x)
          ∧ (∀ next, s.chainage.nextMark = some next → s.chainage.travel = .decreasing → x ≤ next →
              0 < s.chainage.markInterval → (Working s → Reported 0 t)
              ∧ ∃ k : Nat, t.chainage.nextMark = some (next - k * s.chainage.markInterval)
                  ∧ next - k * s.chainage.markInterval < x ∧ x ≤ next - k * s.chainage.markInterval + s.chainage.markInterval)
          ∧ t.chainage = { s.chainage with
              x := x, lastCount := t.chainage.lastCount, countReceived := true, saturated := t.chainage.saturated
              rejects := 0, held := false, nextMark := t.chainage.nextMark, fired := t.chainage.fired
              reasons := { s.chainage.reasons with stopTarget := t.chainage.reasons.stopTarget } })
      ∧ (¬ near → 2 ≤ s.chainage.rejects →
          (Working s → Reported 2 t) ∧ exec (.chainageResync m bytes) s = .next t)
      ∧ (¬ near → s.chainage.rejects < 2 →
          t.chainage = { s.chainage with rejects := s.chainage.rejects + 1 })
      ∧ SameOutside [eventList s] s t ∧ SameListButEvent s t
      ∧ t = { s with
              now := max s.now m, mem := t.mem, attention := t.attention, list := t.list, chainage := t.chainage
              link := t.link, still := t.still
              overlay := { s.overlay with flash := t.overlay.flash } }

/-- A REEL elsewhere: with the encoder fault flag only HELD is set; in STOPPED only the count is kept; in RUNNING
without an origin the origin is established at the base chainage, the marks are armed and the stop target is
evaluated. In FAULTED the same is done, without events. Model's choice: a message is carried as the bytes of the line,
run through the receiver (log entry 29). -/
def Obligations.ReelOutsideTracking : Prop :=
  ∀ (m : Nat) (address : Byte) (payload bytes : List Byte) (s : State), Arrives address 1 payload bytes s →
    (Working s ∧ RegionsOk s ∨ s.part = .faulted) →
    (bitAt payload 4 0 = true ∨ s.chainage.run = .stopped ∨ s.chainage.originValid = false) →
    let count : Word := BitVec.ofNat 32 (payload.take 4 |>.foldl (fun n b => 256 * n + b.toNat) 0)
    let c := s.chainage
    let up := if s.link.state = .up then [] else [Act.event (Event.linkUp s.link.state 1)]
    let fires := if c.fired then none else c.stopTarget.filter fun y => match c.travel with
      | .increasing => decide (y ≤ c.baseX)
      | .decreasing => decide (c.baseX ≤ y)
    let stops := match fires with
      | none => []
      | some y => .event (Event.stopReached y c.baseX) :: if c.autoStop then orderWrites .stop s else []
    ∃ t, exec (.reel m bytes) s = .next t ∧ t.link = heardLink m s
      ∧ (bitAt payload 4 0 = true →
          Writes (up ++ if c.held then [] else [.event (Event.chainageHeld false)]) s t ∧ t.still = s.still)
      ∧ (bitAt payload 4 0 = false → c.run = .stopped → Writes up s t ∧ t.still = s.still)
      ∧ (bitAt payload 4 0 = false → c.run = .running →
          t.chainage = { c with
            originCount := count, lastCount := count, countReceived := true, originValid := true, x := c.baseX
            saturated := false, rejects := 0, held := false, nextMark := armedMark { c with x := c.baseX }
            fired := c.fired || fires.isSome
            reasons := { c.reasons with stopTarget := c.reasons.stopTarget || fires.isSome } }
          ∧ t.still = (if fires.isSome && c.autoStop then orderedStill .stop s else s.still)
          ∧ Writes ((if c.held then [.event (Event.chainageResumed c.baseX count)] else []) ++ stops)
              { up.foldl act s with chainage := { c with x := c.baseX } } t)
      ∧ (bitAt payload 4 0 = true →
          t.chainage = { s.chainage with held := true } ∧ (s.chainage.held = false → Working s → Reported 3 t))
      ∧ (bitAt payload 4 0 = false → s.chainage.run = .stopped →
          t.chainage = { s.chainage with lastCount := count, countReceived := true })
      ∧ (bitAt payload 4 0 = false → s.chainage.run = .running → s.chainage.originValid = false →
          t.chainage.x = s.chainage.baseX ∧ t.chainage.originCount = count ∧ t.chainage.lastCount = count
          ∧ t.chainage.countReceived = true ∧ t.chainage.originValid = true ∧ t.chainage.saturated = false
          ∧ t.chainage.rejects = 0 ∧ t.chainage.held = false ∧ (s.chainage.held = true → Working s → Reported 4 t)
          ∧ t.chainage.nextMark = armedMark { s.chainage with x := s.chainage.baseX })
      ∧ SameOutside [eventList s] s t ∧ SameListButEvent s t
      ∧ t = { s with
              now := max s.now m, mem := t.mem, attention := t.attention, list := t.list, chainage := t.chainage
              link := t.link, still := t.still }

/-- An accepted message makes the link UP and reloads the silence timer; POWER_GRANT, OPERATOR_TEXT, KEEPALIVE, a
surface message, HALT_DRIVE and RELEASE_DRIVE then act on their owner and on nothing else. In FAULTED they do so
without events, and operator text is dropped. Model's choices: a message is carried as the bytes of the line, run
through the receiver (log entry 29), and a set flag is 1 in the payloads of SURFACE_HOLD and BUDGET_CHANGED (log entry
62). -/
def Obligations.AcceptedMessagesReachOwners : Prop :=
  ∀ (m : Nat) (address kind : Byte) (payload bytes : List Byte) (s : State), Arrives address kind payload bytes s →
    (Working s ∧ RegionsOk s ∨ s.part = .faulted) →
    let Takes := fun (c : Instr) (own : List Act) (P : State → Prop) => ∃ t, exec c s = .next t
      ∧ t.link = heardLink m s ∧ (s.link.state ≠ .up → Working s → Reported 5 t) ∧ P t
      ∧ Writes ((if s.link.state = .up then [] else [.event (Event.linkUp s.link.state kind)]) ++ own) s t
      ∧ SameOutside [eventList s] s t ∧ SameListButEvent s t
      ∧ t = { s with
              now := max s.now m, mem := t.mem, attention := t.attention, list := t.list, link := t.link
              lamp := t.lamp, overlay := t.overlay, chainage := t.chainage }
    let Surface := fun (on : Bool) (t : State) => t.lamp = s.lamp ∧ t.overlay = s.overlay
      ∧ t.chainage = { s.chainage with reasons := { s.chainage.reasons with surface := on } }
      ∧ (Working s → Reported 8 t)
    let mA := 256 * u8 payload 0 + u8 payload 1
    let granted := lampUpdate s.part s.cfg.stillLevel { s.lamp with budget := min 12000 mA }
    let budget := if min 12000 mA = s.lamp.budget then []
      else .event (Event.budgetChanged s.lamp.budget (min 12000 mA) (decide (12000 < mA))) :: events granted.2
    (kind = 0x02 → Takes (.powerGrant m bytes) budget fun t => t.overlay = s.overlay ∧ t.chainage = s.chainage
      ∧ t.lamp.budget = min 12000 (256 * u8 payload 0 + u8 payload 1)
      ∧ (t.lamp.budget = s.lamp.budget → t.lamp = s.lamp)
      ∧ (t.lamp.budget ≠ s.lamp.budget → t.lamp = granted.1 ∧ (Working s → Reported 17 t) ∧ t.lamp.total ≤ t.lamp.budget))
    ∧ (kind = 0x03 → Takes (.operatorText m bytes) [] fun t => t.lamp = s.lamp ∧ t.chainage = s.chainage
      ∧ (s.part = .faulted → t.overlay = s.overlay)
      ∧ (Working s → t.overlay = { s.overlay with
          fifo := (s.overlay.fifo ++ payload).drop ((s.overlay.fifo ++ payload).length - 128) }))
    ∧ (kind = 0x04 → Takes (.keepalive m bytes) [] fun t =>
        t.lamp = s.lamp ∧ t.overlay = s.overlay ∧ t.chainage = s.chainage)
    ∧ (0x20 ≤ kind.toNat → kind.toNat ≤ 0x7F → Takes (.surfaceMessage m bytes)
        [.event (Event.linkMessage kind payload)] fun t =>
        t.lamp = s.lamp ∧ t.overlay = s.overlay ∧ t.chainage = s.chainage ∧ (Working s → Reported 7 t))
    ∧ (kind = 0xF0 → Takes (.haltDrive m bytes)
        [.event (Event.surfaceHold kind s.chainage.reasons.surface true)] (Surface true))
    ∧ (kind = 0xF1 → Takes (.releaseDrive m bytes)
        [.event (Event.surfaceHold kind s.chainage.reasons.surface false)] (Surface false))

/-- What the receiver does with bytes that give no accepted message: it takes the start byte, and drops or discards
without a trace; in every other part state the bytes do nothing. Model's choice: a message is carried as the bytes of
the line, run through the receiver (log entry 29). -/
def Obligations.ReceiverDropsWithoutTrace : Prop :=
  ∀ (bytes : List Byte) (framing : Bool) (s : State),
    (linkActive s = false → exec .startByte s = .next s ∧ exec .rxGapTimeout s = .next s
      ∧ exec (.messageDropped bytes framing) s = .next s ∧ exec (.messageDiscarded bytes) s = .next s)
    ∧ (linkActive s = true →
      (s.link.rx.state = .hunt → ∃ rx : Rx, rx.state = .address ∧ rx.crc = 0xFFFF ∧ rx.payload = []
        ∧ exec .startByte s = .next { s with link := { s.link with rx := rx } })
      ∧ exec .rxGapTimeout s = .next { s with link := { s.link with rx := {} } }
      ∧ (∀ b : Byte, s.link.rx.state = .length → 32 < b.toNat →
          exec (.messageDropped [b] false) s = .next { s with link := { s.link with rx := {} } })
      ∧ (∀ b : Byte, s.link.rx.state = .crcLow → s.link.rx.crcHigh ++ b ≠ s.link.rx.crc →
          exec (.messageDropped [b] false) s = .next { s with link := { s.link with rx := {} } })
      ∧ (s.link.rx.state ≠ .hunt →
          exec (.messageDropped [] true) s = .next { s with link := { s.link with rx := {} } })
      ∧ (∀ (address kind : Byte) (payload : List Byte), s.link.rx.state = .hunt → payload.length ≤ 32 →
          filterAccepts s.cfg ⟨address, kind, payload⟩ = false →
          exec (.messageDiscarded (wireBytes address kind payload)) s
            = .next { s with link := { s.link with rx := {} } }))

/-- LINK_LOST: the silence timer's expiry makes the link LOST and stops it, reports the loss, sets HELD, and adds the
LINK_LOST reason with the link-loss hold on; the budget stays. In FAULTED the same without a report. Model's choice:
the timer is the moment of its expiry (log entry 2). -/
def Obligations.LinkLostHoldsChainage : Prop :=
  ∀ (e : Nat) (s : State), s.link.silence = some e → s.link.state ≠ .lost → linkActive s = true →
    (s.part ≠ .faulted → RegionsOk s) →
    ∃ t, exec .linkLost s = .next t
      ∧ t.link = { s.link with state := .lost, silence := none }
      ∧ t.chainage = { s.chainage with
          held := true
          reasons := { s.chainage.reasons with
            linkLost := s.chainage.reasons.linkLost || s.chainage.linkLossHold } }
      ∧ (Working s → Reported 6 t ∧ (s.chainage.held = false → Reported 3 t))
      ∧ (Working s → Writes (.event (Event.linkLost s.link.state s.cfg.silenceMs)
          :: if s.chainage.held then [] else [.event (Event.chainageHeld true)]) s t)
      ∧ (s.part = .faulted → t.mem = s.mem ∧ t.attention = s.attention ∧ t.list = s.list)
      ∧ SameOutside [eventList s] s t ∧ SameListButEvent s t
      ∧ t = { s with
              now := max s.now e, mem := t.mem, attention := t.attention, list := t.list, link := t.link
              chainage := t.chainage }

/-- The link unit is active in RUNNING, HALTING and HALTED, and in FAULTED with values in force. HEAD_STATUS: at
cadence K a message of the present values joins the uplink queue, or takes the waiting one's place, and the cadence
count returns to 0. The transmitter starts the oldest queued message, but not in HALTING; the end of a host message's
sending answers its slot OK with the length and the output frame number, and in HALTING the part is HALTED with its
last work; in FAULTED nothing is answered. Model's choice: HEAD_STATUS names the part of an output frame start at
which the cadence is reached (log entry 3). -/
def Obligations.UplinkBuildsAndSends : Prop :=
  ∀ s : State,
    let flags := byte ((if s.chainage.run = .stopped ∨ s.chainage.held = true then 1 else 0)
      + (if s.chainage.saturated then 2 else 0) + (if s.playout.stallLatch then 4 else 0))
    let msg : UplinkMsg :=
      { host := none, kind := 0x81
        payload := (le32i s.chainage.x).reverse ++ [flags, byte s.chainage.reasons.code] ++ (le16 s.lamp.total).reverse
          ++ (le16i (s.lamp.temp.getD (-32768))).reverse ++ [byte s.part.code] }
    (linkActive s = true → s.cfg.cadenceK ≠ 0 → s.link.cadence + 1 = s.cfg.cadenceK →
      (∀ q ∈ s.link.queue, q.host.isSome = true) →
      exec .headStatus s = .next { s with link := { s.link with cadence := 0, queue := s.link.queue ++ [msg] } })
    ∧ (∀ before after old, linkActive s = true → s.cfg.cadenceK ≠ 0 → s.link.cadence + 1 = s.cfg.cadenceK →
        s.link.queue = before ++ old :: after → old.host = none → (∀ q ∈ before ++ after, q.host.isSome = true) →
        exec .headStatus s = .next { s with link := { s.link with cadence := 0, queue := before ++ msg :: after } })
    ∧ (∀ q rest, linkActive s = true → s.part ≠ .halting → s.link.sending = none → s.link.queue = q :: rest →
      exec .uplinkTransmitStart s = .next { s with
        link := { s.link with
          queue := rest, sending := some { msg := q, wire := wireBytes s.cfg.unitMatch q.kind q.payload } } })
    ∧ (s.part = .halting ∨ linkActive s = false ∨ s.link.sending.isSome = true ∨ s.link.queue = [] →
        exec .uplinkTransmitStart s = .next s)
    ∧ (linkActive s = true ↔ s.part ∈ [.running, .halting, .halted] ∨ s.part = .faulted ∧ s.cfgTaken = true)
    ∧ (∀ x, s.link.sending = some x →
        let sent := { s with link := { s.link with sending := none } }
        (∀ slot, x.msg.host = some slot → Working s → RegionsOk s → slot + 64 ≤ 2 ^ 32 → exec .uplinkSendEnd s
          = .next (settled (answered slot 0 x.msg.payload.length s.playout.frames.toNat sent)))
        ∧ (x.msg.host = none → RegionsOk s → exec .uplinkSendEnd s = .next (settled sent))
        ∧ (s.part = .faulted ∨ (x.msg.host = none ∧ s.part ≠ .halting) → exec .uplinkSendEnd s = .next sent))

/-! ### The head bus -/

/-- The bus monitor follows the other master's conditions, and a stop ends a wait; a due poll is flagged, its
countdown reloaded, and taken into hand when the unit is free. A recovery attempt succeeds or fails by its readings of
HB_DAT and by the clock; it ends in IDLE or FAULT and answers the waiting BUS_RESETs in RUNNING, HALTING and HALTED,
and without an answer in FAULTED. In RUNNING the unit then takes what waits, or in FAULT ends it all BUS_FAULT; in
HALTING the part is HALTED with its last work, the ring and the lamps following. Model's choices: POLL_DUE names the
part of an output frame start at which a countdown ends (log entry 3), joined BUS_RESETs complete in taking order (log
entry 41), BUS_FAULT comes before their answers and these before the unit's look for work (log entry 9), HB_DAT low
after the stop condition is a failure (log entry 47), and a high level is 1 in the payload of BUS_FAULT (log entry
62). -/
def Obligations.BusMonitorPollsAndRecovery : Prop :=
  ∀ (m : Nat) (s : State),
    exec .busForeignStart s = .next { s with bus := { s.bus with monitorBusy := true } }
    ∧ (s.bus.state ≠ .waitFree → exec .busForeignStop s = .next { s with bus := { s.bus with monitorBusy := false } })
    ∧ (s.bus.state = .waitFree → exec .busForeignStop s = .next
        { s with bus := { s.bus with monitorBusy := false, state := .active, busyTimer := none } })
    ∧ (∀ j p, s.part.lit = true → s.bus.polls[j]? = some p → p.entry.enable = true → p.countdown = 1 →
        RegionsOk s → BusReachable s →
        exec (.pollDue m j) s = .next (served { s with
          now := max s.now m
          bus := { s.bus with polls := s.bus.polls.set j { p with countdown := p.entry.period, due := true } } }))
    ∧ (∀ n < 10, let reads := List.replicate n false ++ [true]
        recoveryOf reads false true = some .succeeded ∧ recoveryOf reads false false = some (.failed true false)
        ∧ ∀ dat, recoveryOf reads true dat = some (.failed false false))
    ∧ (∀ dat, recoveryOf (List.replicate 10 false) false dat = some (.failed true false)
        ∧ ∀ n, 0 < n → n < 10 → recoveryOf (List.replicate n false) true dat = some (.failed false dat))
    ∧ (∀ (reads : List Bool) (clkStuck dat : Bool),
      let ended := exec (.recoveryEnd m reads clkStuck dat) s
      let now := max s.now m
      let idle := { s.bus with resets := [], afterReset := false, state := .idle, monitorBusy := false }
      let fault := { s.bus with resets := [], afterReset := false, state := .fault }
      let answers := fun code : Nat => s.bus.resets.map fun a => Act.answer a code 0 0
      (s.bus.state ≠ .recovery ∨ recoveryOf reads clkStuck dat = none → ended = .next s)
      ∧ (s.bus.state = .recovery → s.part = .faulted →
          (recoveryOf reads clkStuck dat = some .succeeded → ended = .next { s with now := now, bus := idle })
          ∧ ∀ clk d, recoveryOf reads clkStuck dat = some (.failed clk d) →
              ended = .next { s with now := now, bus := fault })
      ∧ (s.bus.state = .recovery → Working s → RegionsOk s → BusReachable s → (∀ a ∈ s.bus.resets, a + 64 ≤ 2 ^ 32) →
          (recoveryOf reads clkStuck dat = some .succeeded →
            ended = .next (settled (served ((answers 0).foldl act { s with now := now, bus := idle }))))
          ∧ ∀ clk d, recoveryOf reads clkStuck dat = some (.failed clk d) →
              ended = .next (settled (served ((.event (Event.busFault s.bus.afterReset clk d) :: answers 15).foldl act
                { s with now := now, bus := fault })))))

/-- The ends of a host transfer's transaction, whatever waits behind it: the outcome answers its slot, read bytes go
to their destination on success alone, and an arbitration loss below the retry limit waits for the bus again. The unit
then takes the next work, which after an expiry of the busy timer with which a stop falls together finds the monitor
FREE; in HALTING the part is HALTED with its last work; in FAULTED nothing is answered or stored. What stands on the
bus for a transaction is given too, condition by condition and bit by bit, for each outcome with a stop condition.
Model's choices: the number of bytes acknowledged is an operand (log entry 21), the answer comes before the unit looks
for work (log entry 9), and an operand says that a stop falls together with the expiry (log entry 60). -/
def Obligations.HostTransferEnds : Prop :=
  (∀ (x : Txn) (read : List Byte), read.length = x.readLen →
    let bits := fun b : Byte => (List.range 8).map fun i => b.getLsbD (7 - i)
    let sent := fun (held : Bool) (b : Byte) => (bits b).map BusSignal.sends ++ [.deviceAcks held]
    let toWrite := byte (2 * x.address)
    let toRead := byte (2 * x.address + 1)
    x.signals .success false x.write.length read = .start :: sent true toWrite ++ x.write.flatMap (sent true)
        ++ (if x.readLen = 0 then [] else .repeatedStart :: sent true toRead ++ (read.mapIdx fun i b =>
            (bits b).map BusSignal.receives ++ [.partAcks (decide (i + 1 < x.readLen))]).flatten) ++ [.stop]
    ∧ x.signals .noAckAddr false 0 [] = .start :: sent false toWrite ++ [.stop]
    ∧ (0 < x.readLen → x.signals .noAckAddr true x.write.length [] = .start :: sent true toWrite
        ++ x.write.flatMap (sent true) ++ .repeatedStart :: sent false toRead ++ [.stop])
    ∧ ∀ k < x.write.length, x.signals .noAckData false k [] = .start :: sent true toWrite
        ++ (x.write.take k).flatMap (sent true) ++ sent false (x.write.getD k 0) ++ [.stop])
  ∧ ∀ (m acked e : Nat) (x : Txn) (h : HostTransfer) (rest : List HostTransfer) (s : State), BusReachable s →
    s.bus.inHand = some x → x.owner = .host h → x.readLen = h.readLen → s.bus.queue = h :: rest →
    let ended := fun (moment : Nat) (next : BusState) (busy : Bool) => { s with
      now := max s.now moment
      bus := { s.bus with state := next, monitorBusy := busy, busyTimer := none, inHand := none, queue := rest } }
    let now := max s.now m
    let busy := s.bus.monitorBusy
    let Ends := fun (c : Instr) (code w0 w1 : Nat) (u : State) =>
      exec c s = .next (settled (served (answered h.slot code w0 w1 u)))
    ((s.part = .running ∨ s.part = .halting) → RegionsOk s →
      (∀ stop, s.bus.state = .waitFree → s.bus.busyTimer = some e →
        Ends (.busBusyTimeout stop) 14 0 0 (ended e .idle (busy && !stop)))
      ∧ (s.bus.state = .active →
        Ends (.busStuck m acked) 13 0 acked (ended m .recovery busy)
        ∧ (s.cfg.retryLimit ≤ s.bus.retries → Ends (.arbitrationLost m acked) 12 0 acked (ended m .idle true))
        ∧ (s.bus.retries < s.cfg.retryLimit → exec (.arbitrationLost m acked) s = .next { s with
            now := now
            bus := { s.bus with
              monitorBusy := true, retries := s.bus.retries + 1, state := .waitFree
              busyTimer := some (now + s.cfg.busyMs * 1000) } })
        ∧ (∀ read, Ends (.busTransactionEnd m .noAckAddr 0 read) 10 0 0 (ended m .idle busy))
        ∧ (∀ read, 0 < h.readLen →
            Ends (.busTransactionEnd m .noAckAddr x.write.length read) 10 0 x.write.length (ended m .idle busy))
        ∧ (∀ read, acked < x.write.length →
            Ends (.busTransactionEnd m .noAckData acked read) 11 0 acked (ended m .idle busy))
        ∧ (∀ read : List Byte, read.length = h.readLen → h.dest + h.readLen ≤ 2 ^ 32 →
            Ends (.busTransactionEnd m .success x.write.length read) 0 h.readLen x.write.length
              { ended m .idle busy with mem := storeBytes s.mem h.dest read })))
    ∧ (s.part = .faulted → s.bus.state = .active →
        exec (.busStuck m acked) s = .next (ended m .recovery busy)
        ∧ exec (.arbitrationLost m acked) s = .next (ended m .idle true)
        ∧ (∀ read, acked < x.write.length →
            exec (.busTransactionEnd m .noAckData acked read) s = .next (ended m .idle busy))
        ∧ ∀ read : List Byte, read.length = h.readLen →
            exec (.busTransactionEnd m .success x.write.length read) s = .next (ended m .idle busy))

/-- The successful ends of a gain write and of a poll, whatever waits, in RUNNING, HALTING and FAULTED: the gain in
effect and the poll slot take what was written and read; in RUNNING a plan that has another gain is written next; a
poll whose entry was replaced is not kept; a TEMPERATURE reading reaches the lamp unit with its cut latch, ceiling,
events and lamp update. The unit then looks for work, and in HALTING the part is HALTED with its last work. Model's
choices: the outcome and the bytes read are operands of BUS_TRANSACTION_END (log entry 21), and the owner acts before
the unit looks for work (log entry 9). -/
def Obligations.GainAndPollSuccess : Prop :=
  ∀ (m : Nat) (x : Txn) (s : State),
    ((s.part = .running ∨ s.part = .halting) ∧ RegionsOk s ∨ s.part = .faulted) → BusReachable s →
    s.bus.state = .active → s.bus.inHand = some x →
    let freed := letGo .idle { s with now := max s.now m }
    let Ends := fun (read : List Byte) (u : State) =>
      exec (.busTransactionEnd m .success x.write.length read) s = .next (settled (served u))
    (∀ v, x.owner = .gain v → x.readLen = 0 →
      let e := s.exposure
      let hands := s.part = .running ∧ e.behind = false ∧ e.planG ≠ v
      Ends [] { freed with
        bus := { freed.bus with pendingGain := if hands then some e.planG else s.bus.pendingGain }
        exposure := { e with
          gainInEffect := v, failures := 0, retry := false, behind := false
          gws := if hands ∨ e.behind = true then .queued else .idle
          handedGain := if hands then some e.planG else if e.behind then e.handedGain else none } })
    ∧ (∀ j read, x.owner = .poll j true → read.length = x.readLen → Ends read freed)
    ∧ (∀ j p (read : List Byte), x.owner = .poll j false → s.bus.polls[j]? = some p → read.length = x.readLen →
      let polls := s.bus.polls.set j { p with slot := { held := true, bytes := read, age := 0, failures := 0 } }
      let kept := { freed with bus := { freed.bus with polls := polls } }
      (p.entry.role = .general → Ends read kept)
      ∧ (∀ hi lo : Byte, p.entry.role = .temperature → read = [hi, lo] →
        let temp := Int.fdiv (hi ++ lo).toInt 128
        let cut := if s.lamp.cut then decide (s.cfg.tCut - s.cfg.hysteresis < temp) else decide (s.cfg.tCut ≤ temp)
        let reading := { s.lamp with
          temp := some temp, tempAge := 0, tempFails := 0, stale := false, cut := cut }
        let ceiling := thermalCeiling s.cfg reading
        let lit := if ceiling = s.lamp.ceiling then (reading, [])
          else lampUpdate s.part s.cfg.stillLevel { reading with ceiling := ceiling }
        let latch := if s.lamp.cut = cut then []
          else if cut then [Event.thermalCut temp s.cfg.tCut] else [Event.thermalRestore temp]
        Ends read { (events (latch ++ lit.2)).foldl act kept with lamp := lit.1 }
        ∧ -256 ≤ temp ∧ temp ≤ 255
        ∧ ∃ t, exec (.busTransactionEnd m .success x.write.length read) s = .next t
          ∧ t.lamp.temp = some temp ∧ t.lamp.stale = false ∧ t.lamp.cut = cut
          ∧ (s.part ≠ .faulted → s.lamp.cut = false → cut = true → Reported 14 t)
          ∧ (s.part ≠ .faulted → s.lamp.cut = true → cut = false → Reported 15 t)
          ∧ (cut = true → s.lamp.ceiling ≠ 0 → ∀ c ∈ t.lamp.channels, c.applied = 0)))

/-! ### Invariants -/

/-- The machine after reset meets every invariant stated here. -/
def Obligations.ResetMeetsInvariants : Prop :=
  MemoryCanonical State.reset ∧ LoadingMatchesPart State.reset ∧ HoldFollowsPart State.reset
    ∧ ChainageInRange State.reset ∧ LampWithinLimits State.reset ∧ QueuesBounded State.reset
    ∧ BoostFrameHeld State.reset

/-- Every step keeps board memory canonical, and a load under way in LOADING alone; and a boost frame that is planned
or in progress keeps its claimed order at the head of the queue, or outside RUNNING no order at all. The canonical
form and the load under way are the model's own (log entries 6 and 5). -/
def Obligations.StepKeepsMemoryAndLoading : Prop :=
  ∀ s t : State, step s = .next t →
    (MemoryCanonical s → MemoryCanonical t) ∧ (LoadingMatchesPart s → LoadingMatchesPart t)
      ∧ (BoostFrameHeld s → BoostFrameHeld t)

/-- Every step keeps the chainage values within −999,994..9,999,994 mm, and NOT_RUNNING in the reason set exactly
outside RUNNING. -/
def Obligations.StepKeepsChainageAndHold : Prop :=
  ∀ s t : State, step s = .next t →
    (ChainageInRange s → ChainageInRange t) ∧ (HoldFollowsPart s → HoldFollowsPart t)

/-- Every step keeps every applied lamp level within the ceiling and the total current within the budget in force. -/
def Obligations.StepKeepsLampLimits : Prop :=
  ∀ s t : State, LoadingMatchesPart s → LampWithinLimits s → step s = .next t → LampWithinLimits t

/-- Every step keeps the poll table at its eight entries, and the host transfer queue, the still order queue, the host
places and the banner FIFO within their bounds. That a request in hand keeps its room is the model's own clause (log
entry 4). -/
def Obligations.StepKeepsQueueBounds : Prop :=
  ∀ s t : State, QueuesBounded s → step s = .next t → QueuesBounded t

/-- In OFF and FAULTED no step writes memory; FAULTED is left for OFF alone, and writes no event; and the
configuration in force changes at a configuration load and a reset alone. -/
def Obligations.OffAndFaultedAreSilent : Prop :=
  ∀ s t : State, LoadingMatchesPart s → step s = .next t →
    ((s.part = .off ∨ s.part = .faulted) → t.mem = s.mem)
    ∧ (s.part = .faulted → (t.part = .faulted ∧ t.list.evIndex = s.list.evIndex ∧ t.list.evLap = s.list.evLap)
        ∨ t.part = .off)
    ∧ (t.cfg = s.cfg ∨ (s.part = .loading ∧ t.part = .loading) ∨ t = { State.reset with
        pending := t.pending, now := t.now, mem := s.mem, errors := s.errors, chainage := t.chainage
        overlay := t.overlay })
end

