-- ==== Sys2Proof/Laws/State.lean ====
section
/-! SUPPORT. One lemma for each field and each named update of the state: what the field reads after the update. -/

namespace Sys2Proof.Laws

open Sys2Proof.Machine Sys2Proof.Safety

@[simp] theorem advance_pending (moment : Nat) (s : State) : (advance moment s).pending = s.pending := rfl
@[simp] theorem advance_now (moment : Nat) (s : State) : (advance moment s).now = max s.now moment := rfl
@[simp] theorem advance_mem (moment : Nat) (s : State) : (advance moment s).mem = s.mem := rfl
@[simp] theorem advance_errors (moment : Nat) (s : State) : (advance moment s).errors = s.errors := rfl
@[simp] theorem advance_workBase (moment : Nat) (s : State) : (advance moment s).workBase = s.workBase := rfl
@[simp] theorem advance_attention (moment : Nat) (s : State) : (advance moment s).attention = s.attention := rfl
@[simp] theorem advance_attentionMask (moment : Nat) (s : State) : (advance moment s).attentionMask = s.attentionMask := rfl
@[simp] theorem advance_part (moment : Nat) (s : State) : (advance moment s).part = s.part := rfl
@[simp] theorem advance_loading (moment : Nat) (s : State) : (advance moment s).loading = s.loading := rfl
@[simp] theorem advance_refusalCode (moment : Nat) (s : State) : (advance moment s).refusalCode = s.refusalCode := rfl
@[simp] theorem advance_refusalOffset (moment : Nat) (s : State) : (advance moment s).refusalOffset = s.refusalOffset := rfl
@[simp] theorem advance_cfg (moment : Nat) (s : State) : (advance moment s).cfg = s.cfg := rfl
@[simp] theorem advance_cfgTaken (moment : Nat) (s : State) : (advance moment s).cfgTaken = s.cfgTaken := rfl
@[simp] theorem advance_areaBase (moment : Nat) (s : State) : (advance moment s).areaBase = s.areaBase := rfl
@[simp] theorem advance_list (moment : Nat) (s : State) : (advance moment s).list = s.list := rfl
@[simp] theorem advance_capture (moment : Nat) (s : State) : (advance moment s).capture = s.capture := rfl
@[simp] theorem advance_ring (moment : Nat) (s : State) : (advance moment s).ring = s.ring := rfl
@[simp] theorem advance_playout (moment : Nat) (s : State) : (advance moment s).playout = s.playout := rfl
@[simp] theorem advance_overlay (moment : Nat) (s : State) : (advance moment s).overlay = s.overlay := rfl
@[simp] theorem advance_lamp (moment : Nat) (s : State) : (advance moment s).lamp = s.lamp := rfl
@[simp] theorem advance_exposure (moment : Nat) (s : State) : (advance moment s).exposure = s.exposure := rfl
@[simp] theorem advance_chainage (moment : Nat) (s : State) : (advance moment s).chainage = s.chainage := rfl
@[simp] theorem advance_link (moment : Nat) (s : State) : (advance moment s).link = s.link := rfl
@[simp] theorem advance_bus (moment : Nat) (s : State) : (advance moment s).bus = s.bus := rfl
@[simp] theorem advance_still (moment : Nat) (s : State) : (advance moment s).still = s.still := rfl

@[simp] theorem setAttention_pending (bits : BitVec 4) (s : State) : (setAttention bits s).pending = s.pending := rfl
@[simp] theorem setAttention_now (bits : BitVec 4) (s : State) : (setAttention bits s).now = s.now := rfl
@[simp] theorem setAttention_mem (bits : BitVec 4) (s : State) : (setAttention bits s).mem = s.mem := rfl
@[simp] theorem setAttention_errors (bits : BitVec 4) (s : State) : (setAttention bits s).errors = s.errors := rfl
@[simp] theorem setAttention_workBase (bits : BitVec 4) (s : State) : (setAttention bits s).workBase = s.workBase := rfl
@[simp] theorem setAttention_attention (bits : BitVec 4) (s : State) : (setAttention bits s).attention = s.attention ||| bits := rfl
@[simp] theorem setAttention_attentionMask (bits : BitVec 4) (s : State) : (setAttention bits s).attentionMask = s.attentionMask := rfl
@[simp] theorem setAttention_part (bits : BitVec 4) (s : State) : (setAttention bits s).part = s.part := rfl
@[simp] theorem setAttention_loading (bits : BitVec 4) (s : State) : (setAttention bits s).loading = s.loading := rfl
@[simp] theorem setAttention_refusalCode (bits : BitVec 4) (s : State) : (setAttention bits s).refusalCode = s.refusalCode := rfl
@[simp] theorem setAttention_refusalOffset (bits : BitVec 4) (s : State) : (setAttention bits s).refusalOffset = s.refusalOffset := rfl
@[simp] theorem setAttention_cfg (bits : BitVec 4) (s : State) : (setAttention bits s).cfg = s.cfg := rfl
@[simp] theorem setAttention_cfgTaken (bits : BitVec 4) (s : State) : (setAttention bits s).cfgTaken = s.cfgTaken := rfl
@[simp] theorem setAttention_areaBase (bits : BitVec 4) (s : State) : (setAttention bits s).areaBase = s.areaBase := rfl
@[simp] theorem setAttention_list (bits : BitVec 4) (s : State) : (setAttention bits s).list = s.list := rfl
@[simp] theorem setAttention_capture (bits : BitVec 4) (s : State) : (setAttention bits s).capture = s.capture := rfl
@[simp] theorem setAttention_ring (bits : BitVec 4) (s : State) : (setAttention bits s).ring = s.ring := rfl
@[simp] theorem setAttention_playout (bits : BitVec 4) (s : State) : (setAttention bits s).playout = s.playout := rfl
@[simp] theorem setAttention_overlay (bits : BitVec 4) (s : State) : (setAttention bits s).overlay = s.overlay := rfl
@[simp] theorem setAttention_lamp (bits : BitVec 4) (s : State) : (setAttention bits s).lamp = s.lamp := rfl
@[simp] theorem setAttention_exposure (bits : BitVec 4) (s : State) : (setAttention bits s).exposure = s.exposure := rfl
@[simp] theorem setAttention_chainage (bits : BitVec 4) (s : State) : (setAttention bits s).chainage = s.chainage := rfl
@[simp] theorem setAttention_link (bits : BitVec 4) (s : State) : (setAttention bits s).link = s.link := rfl
@[simp] theorem setAttention_bus (bits : BitVec 4) (s : State) : (setAttention bits s).bus = s.bus := rfl
@[simp] theorem setAttention_still (bits : BitVec 4) (s : State) : (setAttention bits s).still = s.still := rfl

@[simp] theorem setPart_pending (p : PartState) (s : State) : (setPart p s).pending = s.pending := rfl
@[simp] theorem setPart_now (p : PartState) (s : State) : (setPart p s).now = s.now := rfl
@[simp] theorem setPart_mem (p : PartState) (s : State) : (setPart p s).mem = s.mem := rfl
@[simp] theorem setPart_errors (p : PartState) (s : State) : (setPart p s).errors = s.errors := rfl
@[simp] theorem setPart_workBase (p : PartState) (s : State) : (setPart p s).workBase = s.workBase := rfl
@[simp] theorem setPart_attention (p : PartState) (s : State) : (setPart p s).attention = s.attention := rfl
@[simp] theorem setPart_attentionMask (p : PartState) (s : State) : (setPart p s).attentionMask = s.attentionMask := rfl
@[simp] theorem setPart_part (p : PartState) (s : State) : (setPart p s).part = p := rfl
@[simp] theorem setPart_loading (p : PartState) (s : State) : (setPart p s).loading = s.loading := rfl
@[simp] theorem setPart_refusalCode (p : PartState) (s : State) : (setPart p s).refusalCode = s.refusalCode := rfl
@[simp] theorem setPart_refusalOffset (p : PartState) (s : State) : (setPart p s).refusalOffset = s.refusalOffset := rfl
@[simp] theorem setPart_cfg (p : PartState) (s : State) : (setPart p s).cfg = s.cfg := rfl
@[simp] theorem setPart_cfgTaken (p : PartState) (s : State) : (setPart p s).cfgTaken = s.cfgTaken := rfl
@[simp] theorem setPart_areaBase (p : PartState) (s : State) : (setPart p s).areaBase = s.areaBase := rfl
@[simp] theorem setPart_list (p : PartState) (s : State) : (setPart p s).list = s.list := rfl
@[simp] theorem setPart_capture (p : PartState) (s : State) : (setPart p s).capture = s.capture := rfl
@[simp] theorem setPart_ring (p : PartState) (s : State) : (setPart p s).ring = s.ring := rfl
@[simp] theorem setPart_playout (p : PartState) (s : State) : (setPart p s).playout = s.playout := rfl
@[simp] theorem setPart_overlay (p : PartState) (s : State) : (setPart p s).overlay = s.overlay := rfl
@[simp] theorem setPart_lamp (p : PartState) (s : State) : (setPart p s).lamp = s.lamp := rfl
@[simp] theorem setPart_exposure (p : PartState) (s : State) : (setPart p s).exposure = s.exposure := rfl
@[simp] theorem setPart_chainage (p : PartState) (s : State) : (setPart p s).chainage = s.chainage.setNotRunning (p != .running) := rfl
@[simp] theorem setPart_link (p : PartState) (s : State) : (setPart p s).link = s.link := rfl
@[simp] theorem setPart_bus (p : PartState) (s : State) : (setPart p s).bus = s.bus := rfl
@[simp] theorem setPart_still (p : PartState) (s : State) : (setPart p s).still = s.still := rfl

@[simp] theorem updateStore_pending (k : Nat) (f : RingEntry → RingEntry) (s : State) : (updateStore k f s).pending = s.pending := rfl
@[simp] theorem updateStore_now (k : Nat) (f : RingEntry → RingEntry) (s : State) : (updateStore k f s).now = s.now := rfl
@[simp] theorem updateStore_mem (k : Nat) (f : RingEntry → RingEntry) (s : State) : (updateStore k f s).mem = s.mem := rfl
@[simp] theorem updateStore_errors (k : Nat) (f : RingEntry → RingEntry) (s : State) : (updateStore k f s).errors = s.errors := rfl
@[simp] theorem updateStore_workBase (k : Nat) (f : RingEntry → RingEntry) (s : State) : (updateStore k f s).workBase = s.workBase := rfl
@[simp] theorem updateStore_attention (k : Nat) (f : RingEntry → RingEntry) (s : State) : (updateStore k f s).attention = s.attention := rfl
@[simp] theorem updateStore_attentionMask (k : Nat) (f : RingEntry → RingEntry) (s : State) : (updateStore k f s).attentionMask = s.attentionMask := rfl
@[simp] theorem updateStore_part (k : Nat) (f : RingEntry → RingEntry) (s : State) : (updateStore k f s).part = s.part := rfl
@[simp] theorem updateStore_loading (k : Nat) (f : RingEntry → RingEntry) (s : State) : (updateStore k f s).loading = s.loading := rfl
@[simp] theorem updateStore_refusalCode (k : Nat) (f : RingEntry → RingEntry) (s : State) : (updateStore k f s).refusalCode = s.refusalCode := rfl
@[simp] theorem updateStore_refusalOffset (k : Nat) (f : RingEntry → RingEntry) (s : State) : (updateStore k f s).refusalOffset = s.refusalOffset := rfl
@[simp] theorem updateStore_cfg (k : Nat) (f : RingEntry → RingEntry) (s : State) : (updateStore k f s).cfg = s.cfg := rfl
@[simp] theorem updateStore_cfgTaken (k : Nat) (f : RingEntry → RingEntry) (s : State) : (updateStore k f s).cfgTaken = s.cfgTaken := rfl
@[simp] theorem updateStore_areaBase (k : Nat) (f : RingEntry → RingEntry) (s : State) : (updateStore k f s).areaBase = s.areaBase := rfl
@[simp] theorem updateStore_list (k : Nat) (f : RingEntry → RingEntry) (s : State) : (updateStore k f s).list = s.list := rfl
@[simp] theorem updateStore_capture (k : Nat) (f : RingEntry → RingEntry) (s : State) : (updateStore k f s).capture = s.capture := rfl
@[simp] theorem updateStore_ring (k : Nat) (f : RingEntry → RingEntry) (s : State) : (updateStore k f s).ring = updateAt s.ring k f := rfl
@[simp] theorem updateStore_playout (k : Nat) (f : RingEntry → RingEntry) (s : State) : (updateStore k f s).playout = s.playout := rfl
@[simp] theorem updateStore_overlay (k : Nat) (f : RingEntry → RingEntry) (s : State) : (updateStore k f s).overlay = s.overlay := rfl
@[simp] theorem updateStore_lamp (k : Nat) (f : RingEntry → RingEntry) (s : State) : (updateStore k f s).lamp = s.lamp := rfl
@[simp] theorem updateStore_exposure (k : Nat) (f : RingEntry → RingEntry) (s : State) : (updateStore k f s).exposure = s.exposure := rfl
@[simp] theorem updateStore_chainage (k : Nat) (f : RingEntry → RingEntry) (s : State) : (updateStore k f s).chainage = s.chainage := rfl
@[simp] theorem updateStore_link (k : Nat) (f : RingEntry → RingEntry) (s : State) : (updateStore k f s).link = s.link := rfl
@[simp] theorem updateStore_bus (k : Nat) (f : RingEntry → RingEntry) (s : State) : (updateStore k f s).bus = s.bus := rfl
@[simp] theorem updateStore_still (k : Nat) (f : RingEntry → RingEntry) (s : State) : (updateStore k f s).still = s.still := rfl

@[simp] theorem missEvent_pending (e : Event) (s : State) : (missEvent e s).pending = s.pending := rfl
@[simp] theorem missEvent_now (e : Event) (s : State) : (missEvent e s).now = s.now := rfl
@[simp] theorem missEvent_mem (e : Event) (s : State) : (missEvent e s).mem = s.mem := rfl
@[simp] theorem missEvent_errors (e : Event) (s : State) : (missEvent e s).errors = s.errors := rfl
@[simp] theorem missEvent_workBase (e : Event) (s : State) : (missEvent e s).workBase = s.workBase := rfl
@[simp] theorem missEvent_attention (e : Event) (s : State) : (missEvent e s).attention = s.attention := rfl
@[simp] theorem missEvent_attentionMask (e : Event) (s : State) : (missEvent e s).attentionMask = s.attentionMask := rfl
@[simp] theorem missEvent_part (e : Event) (s : State) : (missEvent e s).part = s.part := rfl
@[simp] theorem missEvent_loading (e : Event) (s : State) : (missEvent e s).loading = s.loading := rfl
@[simp] theorem missEvent_refusalCode (e : Event) (s : State) : (missEvent e s).refusalCode = s.refusalCode := rfl
@[simp] theorem missEvent_refusalOffset (e : Event) (s : State) : (missEvent e s).refusalOffset = s.refusalOffset := rfl
@[simp] theorem missEvent_cfg (e : Event) (s : State) : (missEvent e s).cfg = s.cfg := rfl
@[simp] theorem missEvent_cfgTaken (e : Event) (s : State) : (missEvent e s).cfgTaken = s.cfgTaken := rfl
@[simp] theorem missEvent_areaBase (e : Event) (s : State) : (missEvent e s).areaBase = s.areaBase := rfl
@[simp] theorem missEvent_list (e : Event) (s : State) : (missEvent e s).list = { s.list with missed := s.list.missed ||| BitVec.ofNat 24 (2 ^ e.kind) } := rfl
@[simp] theorem missEvent_capture (e : Event) (s : State) : (missEvent e s).capture = s.capture := rfl
@[simp] theorem missEvent_ring (e : Event) (s : State) : (missEvent e s).ring = s.ring := rfl
@[simp] theorem missEvent_playout (e : Event) (s : State) : (missEvent e s).playout = s.playout := rfl
@[simp] theorem missEvent_overlay (e : Event) (s : State) : (missEvent e s).overlay = s.overlay := rfl
@[simp] theorem missEvent_lamp (e : Event) (s : State) : (missEvent e s).lamp = s.lamp := rfl
@[simp] theorem missEvent_exposure (e : Event) (s : State) : (missEvent e s).exposure = s.exposure := rfl
@[simp] theorem missEvent_chainage (e : Event) (s : State) : (missEvent e s).chainage = s.chainage := rfl
@[simp] theorem missEvent_link (e : Event) (s : State) : (missEvent e s).link = s.link := rfl
@[simp] theorem missEvent_bus (e : Event) (s : State) : (missEvent e s).bus = s.bus := rfl
@[simp] theorem missEvent_still (e : Event) (s : State) : (missEvent e s).still = s.still := rfl

@[simp] theorem setRx_pending (rx : Rx) (s : State) : (setRx rx s).pending = s.pending := rfl
@[simp] theorem setRx_now (rx : Rx) (s : State) : (setRx rx s).now = s.now := rfl
@[simp] theorem setRx_mem (rx : Rx) (s : State) : (setRx rx s).mem = s.mem := rfl
@[simp] theorem setRx_errors (rx : Rx) (s : State) : (setRx rx s).errors = s.errors := rfl
@[simp] theorem setRx_workBase (rx : Rx) (s : State) : (setRx rx s).workBase = s.workBase := rfl
@[simp] theorem setRx_attention (rx : Rx) (s : State) : (setRx rx s).attention = s.attention := rfl
@[simp] theorem setRx_attentionMask (rx : Rx) (s : State) : (setRx rx s).attentionMask = s.attentionMask := rfl
@[simp] theorem setRx_part (rx : Rx) (s : State) : (setRx rx s).part = s.part := rfl
@[simp] theorem setRx_loading (rx : Rx) (s : State) : (setRx rx s).loading = s.loading := rfl
@[simp] theorem setRx_refusalCode (rx : Rx) (s : State) : (setRx rx s).refusalCode = s.refusalCode := rfl
@[simp] theorem setRx_refusalOffset (rx : Rx) (s : State) : (setRx rx s).refusalOffset = s.refusalOffset := rfl
@[simp] theorem setRx_cfg (rx : Rx) (s : State) : (setRx rx s).cfg = s.cfg := rfl
@[simp] theorem setRx_cfgTaken (rx : Rx) (s : State) : (setRx rx s).cfgTaken = s.cfgTaken := rfl
@[simp] theorem setRx_areaBase (rx : Rx) (s : State) : (setRx rx s).areaBase = s.areaBase := rfl
@[simp] theorem setRx_list (rx : Rx) (s : State) : (setRx rx s).list = s.list := rfl
@[simp] theorem setRx_capture (rx : Rx) (s : State) : (setRx rx s).capture = s.capture := rfl
@[simp] theorem setRx_ring (rx : Rx) (s : State) : (setRx rx s).ring = s.ring := rfl
@[simp] theorem setRx_playout (rx : Rx) (s : State) : (setRx rx s).playout = s.playout := rfl
@[simp] theorem setRx_overlay (rx : Rx) (s : State) : (setRx rx s).overlay = s.overlay := rfl
@[simp] theorem setRx_lamp (rx : Rx) (s : State) : (setRx rx s).lamp = s.lamp := rfl
@[simp] theorem setRx_exposure (rx : Rx) (s : State) : (setRx rx s).exposure = s.exposure := rfl
@[simp] theorem setRx_chainage (rx : Rx) (s : State) : (setRx rx s).chainage = s.chainage := rfl
@[simp] theorem setRx_link (rx : Rx) (s : State) : (setRx rx s).link = { s.link with rx := rx } := rfl
@[simp] theorem setRx_bus (rx : Rx) (s : State) : (setRx rx s).bus = s.bus := rfl
@[simp] theorem setRx_still (rx : Rx) (s : State) : (setRx rx s).still = s.still := rfl

@[simp] theorem endScan_pending (s : State) : (endScan s).pending = s.pending := rfl
@[simp] theorem endScan_now (s : State) : (endScan s).now = s.now := rfl
@[simp] theorem endScan_mem (s : State) : (endScan s).mem = s.mem := rfl
@[simp] theorem endScan_errors (s : State) : (endScan s).errors = s.errors := rfl
@[simp] theorem endScan_workBase (s : State) : (endScan s).workBase = s.workBase := rfl
@[simp] theorem endScan_attention (s : State) : (endScan s).attention = s.attention := rfl
@[simp] theorem endScan_attentionMask (s : State) : (endScan s).attentionMask = s.attentionMask := rfl
@[simp] theorem endScan_part (s : State) : (endScan s).part = s.part := rfl
@[simp] theorem endScan_loading (s : State) : (endScan s).loading = s.loading := rfl
@[simp] theorem endScan_refusalCode (s : State) : (endScan s).refusalCode = s.refusalCode := rfl
@[simp] theorem endScan_refusalOffset (s : State) : (endScan s).refusalOffset = s.refusalOffset := rfl
@[simp] theorem endScan_cfg (s : State) : (endScan s).cfg = s.cfg := rfl
@[simp] theorem endScan_cfgTaken (s : State) : (endScan s).cfgTaken = s.cfgTaken := rfl
@[simp] theorem endScan_areaBase (s : State) : (endScan s).areaBase = s.areaBase := rfl
@[simp] theorem endScan_list (s : State) : (endScan s).list = { s.list with scanning := false } := rfl
@[simp] theorem endScan_capture (s : State) : (endScan s).capture = s.capture := rfl
@[simp] theorem endScan_ring (s : State) : (endScan s).ring = s.ring := rfl
@[simp] theorem endScan_playout (s : State) : (endScan s).playout = s.playout := rfl
@[simp] theorem endScan_overlay (s : State) : (endScan s).overlay = s.overlay := rfl
@[simp] theorem endScan_lamp (s : State) : (endScan s).lamp = s.lamp := rfl
@[simp] theorem endScan_exposure (s : State) : (endScan s).exposure = s.exposure := rfl
@[simp] theorem endScan_chainage (s : State) : (endScan s).chainage = s.chainage := rfl
@[simp] theorem endScan_link (s : State) : (endScan s).link = s.link := rfl
@[simp] theorem endScan_bus (s : State) : (endScan s).bus = s.bus := rfl
@[simp] theorem endScan_still (s : State) : (endScan s).still = s.still := rfl

@[simp] theorem released_pending (s : State) : (Safety.released s).pending = s.pending := rfl
@[simp] theorem released_now (s : State) : (Safety.released s).now = s.now := rfl
@[simp] theorem released_mem (s : State) : (Safety.released s).mem = s.mem := rfl
@[simp] theorem released_errors (s : State) : (Safety.released s).errors = s.errors := rfl
@[simp] theorem released_workBase (s : State) : (Safety.released s).workBase = s.workBase := rfl
@[simp] theorem released_attention (s : State) : (Safety.released s).attention = s.attention := rfl
@[simp] theorem released_attentionMask (s : State) : (Safety.released s).attentionMask = s.attentionMask := rfl
@[simp] theorem released_part (s : State) : (Safety.released s).part = s.part := rfl
@[simp] theorem released_loading (s : State) : (Safety.released s).loading = s.loading := rfl
@[simp] theorem released_refusalCode (s : State) : (Safety.released s).refusalCode = s.refusalCode := rfl
@[simp] theorem released_refusalOffset (s : State) : (Safety.released s).refusalOffset = s.refusalOffset := rfl
@[simp] theorem released_cfg (s : State) : (Safety.released s).cfg = s.cfg := rfl
@[simp] theorem released_cfgTaken (s : State) : (Safety.released s).cfgTaken = s.cfgTaken := rfl
@[simp] theorem released_areaBase (s : State) : (Safety.released s).areaBase = s.areaBase := rfl
@[simp] theorem released_list (s : State) : (Safety.released s).list = { s.list with handed := none } := rfl
@[simp] theorem released_capture (s : State) : (Safety.released s).capture = s.capture := rfl
@[simp] theorem released_ring (s : State) : (Safety.released s).ring = s.ring := rfl
@[simp] theorem released_playout (s : State) : (Safety.released s).playout = s.playout := rfl
@[simp] theorem released_overlay (s : State) : (Safety.released s).overlay = s.overlay := rfl
@[simp] theorem released_lamp (s : State) : (Safety.released s).lamp = s.lamp := rfl
@[simp] theorem released_exposure (s : State) : (Safety.released s).exposure = s.exposure := rfl
@[simp] theorem released_chainage (s : State) : (Safety.released s).chainage = s.chainage := rfl
@[simp] theorem released_link (s : State) : (Safety.released s).link = s.link := rfl
@[simp] theorem released_bus (s : State) : (Safety.released s).bus = s.bus := rfl
@[simp] theorem released_still (s : State) : (Safety.released s).still = s.still := rfl

@[simp] theorem answered_pending (slot code w0 w1 : Nat) (s : State) : (Safety.answered slot code w0 w1 s).pending = s.pending := rfl
@[simp] theorem answered_now (slot code w0 w1 : Nat) (s : State) : (Safety.answered slot code w0 w1 s).now = s.now := rfl
@[simp] theorem answered_errors (slot code w0 w1 : Nat) (s : State) : (Safety.answered slot code w0 w1 s).errors = s.errors := rfl
@[simp] theorem answered_workBase (slot code w0 w1 : Nat) (s : State) : (Safety.answered slot code w0 w1 s).workBase = s.workBase := rfl
@[simp] theorem answered_attention (slot code w0 w1 : Nat) (s : State) : (Safety.answered slot code w0 w1 s).attention = s.attention ||| 1 := rfl
@[simp] theorem answered_attentionMask (slot code w0 w1 : Nat) (s : State) : (Safety.answered slot code w0 w1 s).attentionMask = s.attentionMask := rfl
@[simp] theorem answered_part (slot code w0 w1 : Nat) (s : State) : (Safety.answered slot code w0 w1 s).part = s.part := rfl
@[simp] theorem answered_loading (slot code w0 w1 : Nat) (s : State) : (Safety.answered slot code w0 w1 s).loading = s.loading := rfl
@[simp] theorem answered_refusalCode (slot code w0 w1 : Nat) (s : State) : (Safety.answered slot code w0 w1 s).refusalCode = s.refusalCode := rfl
@[simp] theorem answered_refusalOffset (slot code w0 w1 : Nat) (s : State) : (Safety.answered slot code w0 w1 s).refusalOffset = s.refusalOffset := rfl
@[simp] theorem answered_cfg (slot code w0 w1 : Nat) (s : State) : (Safety.answered slot code w0 w1 s).cfg = s.cfg := rfl
@[simp] theorem answered_cfgTaken (slot code w0 w1 : Nat) (s : State) : (Safety.answered slot code w0 w1 s).cfgTaken = s.cfgTaken := rfl
@[simp] theorem answered_areaBase (slot code w0 w1 : Nat) (s : State) : (Safety.answered slot code w0 w1 s).areaBase = s.areaBase := rfl
@[simp] theorem answered_list (slot code w0 w1 : Nat) (s : State) : (Safety.answered slot code w0 w1 s).list = s.list := rfl
@[simp] theorem answered_capture (slot code w0 w1 : Nat) (s : State) : (Safety.answered slot code w0 w1 s).capture = s.capture := rfl
@[simp] theorem answered_ring (slot code w0 w1 : Nat) (s : State) : (Safety.answered slot code w0 w1 s).ring = s.ring := rfl
@[simp] theorem answered_playout (slot code w0 w1 : Nat) (s : State) : (Safety.answered slot code w0 w1 s).playout = s.playout := rfl
@[simp] theorem answered_overlay (slot code w0 w1 : Nat) (s : State) : (Safety.answered slot code w0 w1 s).overlay = s.overlay := rfl
@[simp] theorem answered_lamp (slot code w0 w1 : Nat) (s : State) : (Safety.answered slot code w0 w1 s).lamp = s.lamp := rfl
@[simp] theorem answered_exposure (slot code w0 w1 : Nat) (s : State) : (Safety.answered slot code w0 w1 s).exposure = s.exposure := rfl
@[simp] theorem answered_chainage (slot code w0 w1 : Nat) (s : State) : (Safety.answered slot code w0 w1 s).chainage = s.chainage := rfl
@[simp] theorem answered_link (slot code w0 w1 : Nat) (s : State) : (Safety.answered slot code w0 w1 s).link = s.link := rfl
@[simp] theorem answered_bus (slot code w0 w1 : Nat) (s : State) : (Safety.answered slot code w0 w1 s).bus = s.bus := rfl
@[simp] theorem answered_still (slot code w0 w1 : Nat) (s : State) : (Safety.answered slot code w0 w1 s).still = s.still := rfl

end Sys2Proof.Laws
end

