-- ==== Sys2Proof/Laws/Lamp.lean ====
section
/-! SUPPORT. The lamp unit's arithmetic: currents grow with the level, a lamp update stays within the ceiling and the
budget, and in OFF and LOADING it brings every level to 0. -/

namespace Sys2Proof.Laws

open Sys2Proof.Machine Sys2Proof.Safety

theorem ceilDiv_zero (b : Nat) : ceilDiv 0 b = 0 := by
  unfold ceilDiv
  obtain h | h := Nat.eq_zero_or_pos b
  · simp [h]
  · exact Nat.div_eq_of_lt (by omega)

theorem ceilDiv_mono {a a' : Nat} (b : Nat) (h : a ≤ a') : ceilDiv a b ≤ ceilDiv a' b :=
  Nat.div_le_div_right (by omega)

/-- cur grows with the level (R78). -/
theorem lampCurrent_mono (iFull : Nat) {n n' : Nat} (h : n ≤ n') : lampCurrent iFull n ≤ lampCurrent iFull n' :=
  ceilDiv_mono _ (Nat.mul_le_mul_right _ h)

theorem lampCurrent_zero (iFull : Nat) : lampCurrent iFull 0 = 0 := by simp [lampCurrent, ceilDiv_zero]

/-- The average current is 0 at level 0 (R78). -/
@[simp] theorem averageCurrent_zero (t tCap : Nat) (c : Channel) : averageCurrent t tCap c 0 = 0 := by
  unfold averageCurrent
  split <;> simp [lampCurrent_zero, ceilDiv_zero]

/-- The average current grows with the level (R78). -/
theorem averageCurrent_mono (t tCap : Nat) (c : Channel) {n n' : Nat} (h : n ≤ n') :
    averageCurrent t tCap c n ≤ averageCurrent t tCap c n' := by
  unfold averageCurrent
  split
  · exact Nat.le_refl _
  · exact lampCurrent_mono _ h
  · exact ceilDiv_mono _ (Nat.mul_le_mul_right _ (lampCurrent_mono _ h))

/-- The level found is at most the bound it is looked for under. -/
theorem largestLevel_le (fits : Nat → Bool) : ∀ n, largestLevel fits n ≤ n
  | 0 => Nat.le_refl _
  | n + 1 => by
    unfold largestLevel
    split
    · exact Nat.le_refl _
    · exact Nat.le_succ_of_le (largestLevel_le fits n)

/-- The level found fits, or it is 0. -/
theorem largestLevel_fits (fits : Nat → Bool) : ∀ n, largestLevel fits n = 0 ∨ fits (largestLevel fits n) = true
  | 0 => .inl rfl
  | n + 1 => by
    unfold largestLevel
    split
    · rename_i h; exact .inr h
    · exact largestLevel_fits fits n

theorem serveChannels_length (part : PartState) (t tCap b : Nat) : ∀ (ps : List (Channel × Nat)) (spent : Nat) (cut : Bool),
    (serveChannels part t tCap b ps spent cut).length = ps.length
  | [], _, _ => rfl
  | (c, w) :: ps, spent, cut => by
    unfold serveChannels
    split <;> simp [serveChannels_length part t tCap b ps]

theorem unlit_wanted {part : PartState} (h : part = .off ∨ part = .loading) (still : Nat) (l : Lamp) (c : Channel) :
    wantedLevel part still l c = 0 := by
  obtain h | h := h <;> simp [wantedLevel, PartState.lit, PartState.standby, h]

theorem unlit_served {part : PartState} (h : part = .off ∨ part = .loading) (c : Channel) :
    servedChannel part c = false := by
  obtain h | h := h <;> simp [servedChannel, PartState.lit, PartState.standby, h]

theorem unlit_serve {part : PartState} (h : part = .off ∨ part = .loading) (t tCap b : Nat) :
    ∀ (ps : List (Channel × Nat)) (spent : Nat) (cut : Bool),
      serveChannels part t tCap b ps spent cut = List.replicate ps.length 0
  | [], _, _ => rfl
  | (c, w) :: ps, spent, cut => by
    unfold serveChannels
    rw [if_neg (by simp [unlit_served h])]
    simp [unlit_serve h t tCap b ps, List.replicate_succ]

theorem totalCurrent_zeros (t tCap : Nat) : ∀ (cs : List Channel) (n : Nat), totalCurrent t tCap cs (List.replicate n 0) = 0
  | [], n => by cases n <;> rfl
  | c :: cs, 0 => rfl
  | c :: cs, n + 1 => by simp [totalCurrent, List.replicate_succ, totalCurrent_zeros t tCap cs n]

theorem unlit_levels {part : PartState} (h : part = .off ∨ part = .loading) (still : Nat) (l : Lamp) :
    lampLevels part still l = { levels := List.replicate l.channels.length 0, cap := 0, lApp := 0 } := by
  have hl : part.lit = false := by obtain h | h := h <;> simp [PartState.lit, h]
  have ha : ∀ c, autoChannel part c = false := by intro c; simp [autoChannel, hl]
  simp only [lampLevels, unlit_serve h, hl]
  congr 1
  apply List.ext_getElem <;> simp [ha]

theorem unlit_boostCut {part : PartState} (h : part = .off ∨ part = .loading) (still : Nat) (l : Lamp) :
    boostCut part still l = false := by
  obtain h | h := h <;> simp [boostCut, autoChannel, PartState.lit, h]

/-- In OFF and LOADING a lamp update brings every level, L_b, L_app and the total to 0, and no event arises (R83, R91). -/
theorem lampUpdate_unlit {part : PartState} (h : part = .off ∨ part = .loading) (still : Nat) (l : Lamp) :
    lampUpdate part still l =
      ({ l with channels := l.channels.map fun c => { c with applied := 0 }, cap := 0, lApp := 0, total := 0,
                clamp := false }, []) := by
  have hc : ∀ c, cappedLevel part still l c = 0 := by intro c; simp [cappedLevel, unlit_wanted h]
  have hz : ∀ (cs : List Channel), List.zipWith (fun c n => ({ c with applied := n } : Channel)) cs
      (List.replicate cs.length 0) = cs.map fun c => { c with applied := 0 } := by
    intro cs
    induction cs with
    | nil => rfl
    | cons c cs ih => simp [List.replicate_succ, ih]
  have hr : (List.zipWith (fun a w => decide (a < w)) (List.replicate l.channels.length 0)
      (l.channels.map (cappedLevel part still l))).any id = false := by
    simp [hc, List.any_eq_false, List.mem_iff_getElem]
  simp only [lampUpdate, unlit_levels h, totalCurrent_zeros, hz, hr, unlit_boostCut h]
  simp

end Sys2Proof.Laws
end

