-- ==== Sys2Proof/Laws/Memory.lean ====
section
/-! SUPPORT. Board memory: a read after a write, and the canonical form kept by every memory operation. -/

namespace Sys2Proof.Laws

open Sys2Proof.Machine Sys2Proof.Safety

theorem wfFrom_mono {lo lo' : Nat} {m : List Host.Cell} (h : lo' ≤ lo) (hw : Memory.wfFrom lo m = true) :
    Memory.wfFrom lo' m = true := by
  cases m with
  | nil => rfl
  | cons c m =>
    obtain ⟨k, v⟩ := c
    simp only [Memory.wfFrom, Bool.and_eq_true, decide_eq_true_eq] at hw ⊢
    exact ⟨⟨by omega, hw.1.2⟩, hw.2⟩

/-- Below the first listed address of a canonical memory every byte reads as unlisted. -/
theorem read_below {lo a : Nat} : ∀ {m : List Host.Cell}, Memory.wfFrom lo m = true → a < lo →
    Memory.read m a = Memory.unlisted
  | [], _, _ => rfl
  | (k, v) :: m, hw, h => by
    simp only [Memory.wfFrom, Bool.and_eq_true, decide_eq_true_eq] at hw
    rw [Memory.read, if_neg (by omega)]
    exact read_below (lo := k + 1) hw.2 (by omega)

/-- A write keeps the canonical form above a bound that its address respects. -/
theorem write_wfFrom {a : Nat} {b : Byte} : ∀ {m : List Host.Cell} {lo : Nat}, Memory.wfFrom lo m = true → lo ≤ a →
    Memory.wfFrom lo (Memory.write m a b) = true
  | [], lo, _, h => by
    by_cases hb : b = Memory.unlisted
    · simp [Memory.write, Memory.wfFrom, hb]
    · simp [Memory.write, Memory.wfFrom, hb, h]
  | (k, v) :: m, lo, hw, h => by
    have hw' := hw
    simp only [Memory.wfFrom, Bool.and_eq_true, decide_eq_true_eq] at hw'
    obtain ⟨⟨hk, hv⟩, hm⟩ := hw'
    by_cases h1 : a < k
    · by_cases hb : b = Memory.unlisted
      · simpa [Memory.write, h1, hb] using hw
      · simp [Memory.write, h1, hb, Memory.wfFrom, h, hm]
        simpa using hv
    · by_cases h2 : a = k
      · subst h2
        by_cases hb : b = Memory.unlisted
        · simpa [Memory.write, hb] using wfFrom_mono (by omega) hm
        · simp [Memory.write, hb, Memory.wfFrom, h, hm]
      · have := write_wfFrom (b := b) hm (show k + 1 ≤ a by omega)
        simp [Memory.write, h1, h2, Memory.wfFrom, hk, this]
        simpa using hv

/-- A write keeps the canonical form. -/
theorem write_wf {m : List Host.Cell} (a : Nat) (b : Byte) (h : Memory.wf m = true) :
    Memory.wf (Memory.write m a b) = true := write_wfFrom h (Nat.zero_le _)

/-- A read of canonical memory after a write. -/
theorem read_write_wfFrom {a x : Nat} {b : Byte} : ∀ {m : List Host.Cell} {lo : Nat}, Memory.wfFrom lo m = true →
    Memory.read (Memory.write m a b) x = if x = a then b else Memory.read m x
  | [], lo, _ => by
    by_cases hb : b = Memory.unlisted
    · simp [Memory.write, Memory.read, hb]
    · simp [Memory.write, Memory.read, hb]
  | (k, v) :: m, lo, hw => by
    have hw' := hw
    simp only [Memory.wfFrom, Bool.and_eq_true, decide_eq_true_eq] at hw'
    obtain ⟨⟨hk, hv⟩, hm⟩ := hw'
    by_cases h1 : a < k
    · by_cases hb : b = Memory.unlisted
      · simp only [Memory.write, h1, hb, if_true]
        split
        · subst x
          rw [Memory.read, if_neg (by omega), read_below hm (by omega)]
        · rfl
      · simp [Memory.write, h1, hb, Memory.read]
    · by_cases h2 : a = k
      · subst h2
        by_cases hb : b = Memory.unlisted
        · simp only [Memory.write, hb, if_true, if_neg h1]
          split
          · subst x
            exact read_below hm (by omega)
          · rename_i hx
            rw [Memory.read, if_neg hx]
        · simp only [Memory.write, hb, if_true, if_false, h1, Memory.read]
          split <;> rfl
      · have ih := read_write_wfFrom (a := a) (x := x) (b := b) hm
        simp only [Memory.write, h1, h2, if_false, Memory.read]
        split
        · rename_i hx
          rw [if_neg (by omega)]
        · exact ih

/-- A read after a write: the byte written at its address, every other byte as before. -/
theorem read_write {m : List Host.Cell} (h : Memory.wf m = true) (a x : Nat) (b : Byte) :
    Memory.read (Memory.write m a b) x = if x = a then b else Memory.read m x := read_write_wfFrom h

/-- A list of bytes stored keeps the canonical form. -/
theorem storeBytes_wf : ∀ {bs : List Byte} {m : List Host.Cell} {a : Nat}, Memory.wf m = true →
    Memory.wf (storeBytes m a bs) = true
  | [], _, _, h => h
  | b :: bs, m, a, h => by
    rw [storeBytes]
    exact storeBytes_wf (write_wf a b h)

/-- A read outside the bytes stored. -/
theorem read_storeBytes_outside : ∀ {bs : List Byte} {m : List Host.Cell} {a x : Nat}, Memory.wf m = true →
    (x < a ∨ a + bs.length ≤ x) → Memory.read (storeBytes m a bs) x = Memory.read m x
  | [], _, _, _, _, _ => rfl
  | b :: bs, m, a, x, h, hx => by
    rw [storeBytes, read_storeBytes_outside (write_wf _ _ h) (by simp at hx; omega), read_write h, if_neg]
    simp at hx
    omega

/-- A read of a byte stored. -/
theorem read_storeBytes_inside : ∀ {bs : List Byte} {m : List Host.Cell} {a i : Nat}, Memory.wf m = true →
    i < bs.length → Memory.read (storeBytes m a bs) (a + i) = bs.getD i 0
  | b :: bs, m, a, 0, h, _ => by
    rw [storeBytes, read_storeBytes_outside (write_wf _ _ h) (by omega), read_write h]
    simp
  | b :: bs, m, a, i + 1, h, hi => by
    rw [storeBytes, show a + (i + 1) = a + 1 + i by omega,
      read_storeBytes_inside (write_wf _ _ h) (by simpa using hi)]
    simp

/-- The machine after reset has canonical memory. -/
theorem reset_mem_wf : Memory.wf State.reset.mem = true := rfl

@[simp] theorem readList_length (m : List Host.Cell) : ∀ (a n : Nat), (Memory.readList m a n).length = n
  | _, 0 => rfl
  | a, n + 1 => by rw [Memory.readList, List.length_cons, readList_length m (a + 1) n]

end Sys2Proof.Laws
end

