-- ==== Sys2Proof/Laws/Port.lean ====
section
/-! SUPPORT. What the memory master port, entry to FAULTED, the copy of a still, the writing of events and the
completion of a request can do: the lemmas to cite in place of unfolding them. -/

namespace Sys2Proof.Laws

open Sys2Proof.Machine Sys2Proof.Safety

/-! ### Entry to FAULTED -/

/-- What the end of a gain write changes: the exposure unit and the head bus unit. -/
theorem handGain_frame (s : State) : ∃ e b, handGain s = { s with exposure := e, bus := b } := by
  by_cases hr : s.part ≠ .running
  · exact ⟨s.exposure, s.bus, by simp [handGain, hr]⟩
  · simp only [handGain, if_neg hr]
    split <;> repeat' split
    all_goals exact ⟨_, _, rfl⟩

/-- The end of a gain write changes the exposure unit and the head bus unit alone. -/
theorem gainWriteEnd_frame (v : Nat) (o : BusOutcome) (s : State) :
    ∃ e b, (gainWriteEnd v o s).1 = { s with exposure := e, bus := b } := by
  simp only [gainWriteEnd]
  split
  · split
    · obtain ⟨e, b, h⟩ := handGain_frame
        { s with exposure := afterWrite { s.exposure with gainInEffect := v, failures := 0, retry := false } }
      exact ⟨e, b, h⟩
    · exact ⟨_, _, rfl⟩
  · exact ⟨_, _, rfl⟩

/-- The end of a poll changes the head bus unit and the lamp unit alone. -/
theorem pollEnd_frame (j : Nat) (r : Bool) (o : BusOutcome) (bs : List Byte) (s : State) :
    ∃ l b, (pollEnd j r o bs s).1 = { s with lamp := l, bus := b } := by
  unfold pollEnd
  split
  · exact ⟨_, _, rfl⟩
  · split
    · simp only [pollSucceeded]; split <;> exact ⟨_, _, rfl⟩
    · simp only [pollFailed]; split <;> exact ⟨_, _, rfl⟩

/-- The head bus unit's part in an entry to FAULTED changes itself, the exposure unit and the lamp unit. -/
theorem faultBus_frame (s : State) : ∃ e l b, faultBus s = { s with exposure := e, lamp := l, bus := b } := by
  unfold faultBus
  split
  · split
    · exact ⟨_, _, _, rfl⟩
    · split
      · rename_i v _
        obtain ⟨e, b, h⟩ := gainWriteEnd_frame v .busFault { s with bus := s.bus.idled }
        exact ⟨e, s.lamp, b, h⟩
      · rename_i j r _
        obtain ⟨l, b, h⟩ := pollEnd_frame j r .busFault [] { s with bus := s.bus.idled }
        exact ⟨s.exposure, l, b, h⟩
      · exact ⟨_, _, _, rfl⟩
  · exact ⟨_, _, _, rfl⟩

/-! Entry to FAULTED touches no memory, no register but ATTENTION, no configuration and no overlay (R10). -/

@[simp] theorem enterFaulted_pending (s : State) : (enterFaulted s).pending = s.pending := by
  unfold enterFaulted
  split
  · rfl
  · obtain ⟨e, l, b, h⟩ := faultBus_frame (faultBlocks s)
    rw [h]
    rfl

@[simp] theorem enterFaulted_now (s : State) : (enterFaulted s).now = s.now := by
  unfold enterFaulted
  split
  · rfl
  · obtain ⟨e, l, b, h⟩ := faultBus_frame (faultBlocks s)
    rw [h]
    rfl

@[simp] theorem enterFaulted_mem (s : State) : (enterFaulted s).mem = s.mem := by
  unfold enterFaulted
  split
  · rfl
  · obtain ⟨e, l, b, h⟩ := faultBus_frame (faultBlocks s)
    rw [h]
    rfl

@[simp] theorem enterFaulted_errors (s : State) : (enterFaulted s).errors = s.errors := by
  unfold enterFaulted
  split
  · rfl
  · obtain ⟨e, l, b, h⟩ := faultBus_frame (faultBlocks s)
    rw [h]
    rfl

@[simp] theorem enterFaulted_workBase (s : State) : (enterFaulted s).workBase = s.workBase := by
  unfold enterFaulted
  split
  · rfl
  · obtain ⟨e, l, b, h⟩ := faultBus_frame (faultBlocks s)
    rw [h]
    rfl

@[simp] theorem enterFaulted_attentionMask (s : State) : (enterFaulted s).attentionMask = s.attentionMask := by
  unfold enterFaulted
  split
  · rfl
  · obtain ⟨e, l, b, h⟩ := faultBus_frame (faultBlocks s)
    rw [h]
    rfl

@[simp] theorem enterFaulted_refusalCode (s : State) : (enterFaulted s).refusalCode = s.refusalCode := by
  unfold enterFaulted
  split
  · rfl
  · obtain ⟨e, l, b, h⟩ := faultBus_frame (faultBlocks s)
    rw [h]
    rfl

@[simp] theorem enterFaulted_refusalOffset (s : State) : (enterFaulted s).refusalOffset = s.refusalOffset := by
  unfold enterFaulted
  split
  · rfl
  · obtain ⟨e, l, b, h⟩ := faultBus_frame (faultBlocks s)
    rw [h]
    rfl

@[simp] theorem enterFaulted_cfg (s : State) : (enterFaulted s).cfg = s.cfg := by
  unfold enterFaulted
  split
  · rfl
  · obtain ⟨e, l, b, h⟩ := faultBus_frame (faultBlocks s)
    rw [h]
    rfl

@[simp] theorem enterFaulted_cfgTaken (s : State) : (enterFaulted s).cfgTaken = s.cfgTaken := by
  unfold enterFaulted
  split
  · rfl
  · obtain ⟨e, l, b, h⟩ := faultBus_frame (faultBlocks s)
    rw [h]
    rfl

@[simp] theorem enterFaulted_areaBase (s : State) : (enterFaulted s).areaBase = s.areaBase := by
  unfold enterFaulted
  split
  · rfl
  · obtain ⟨e, l, b, h⟩ := faultBus_frame (faultBlocks s)
    rw [h]
    rfl

@[simp] theorem enterFaulted_overlay (s : State) : (enterFaulted s).overlay = s.overlay := by
  unfold enterFaulted
  split
  · rfl
  · obtain ⟨e, l, b, h⟩ := faultBus_frame (faultBlocks s)
    rw [h]
    rfl

/-- The part state after an entry to FAULTED. -/
theorem enterFaulted_part (s : State) : (enterFaulted s).part = if s.part = .off then .off else .faulted := by
  unfold enterFaulted
  split
  · rename_i h
    obtain h | h := h <;> simp [h]
  · rename_i h
    obtain ⟨e, l, b, hb⟩ := faultBus_frame (faultBlocks s)
    rw [hb, if_neg fun h' => h (.inl h')]
    rfl

/-! ### The port -/

theorem portOk_nil (a : Nat) : portOk [] a = decide (a < 2 ^ 32) := by
  simp [portOk]

/-- A write that no error response cuts stores every byte and changes nothing else. -/
theorem writeFrom_ok : ∀ {bs : List Byte} {a : Nat} {s : State}, s.errors = [] → a + bs.length ≤ 2 ^ 32 →
    writeFrom a bs s = { s with mem := storeBytes s.mem a bs }
  | [], _, _, _, _ => rfl
  | b :: bs, a, s, he, hl => by
    have hok : portOk s.errors a = true := by rw [he, portOk_nil]; simp at hl ⊢; omega
    rw [writeFrom, if_pos hok, writeFrom_ok (by exact he) (by simp at hl; omega)]
    rfl

theorem portWrite_ok {bs : List Byte} {a : Nat} {s : State} (ho : portOpen s = true) (he : s.errors = [])
    (hl : a + bs.length ≤ 2 ^ 32) : portWrite a bs s = { s with mem := storeBytes s.mem a bs } := by
  rw [portWrite, if_pos ho, writeFrom_ok he hl]

theorem portWrite_closed {bs : List Byte} {a : Nat} {s : State} (ho : portOpen s = false) : portWrite a bs s = s := by
  rw [portWrite, if_neg (by simp [ho])]

theorem portRead_ok {a n : Nat} {s : State} (ho : portOpen s = true) (he : s.errors = []) (hl : a + n ≤ 2 ^ 32) :
    portRead a n s = some (Memory.readList s.mem a n) := by
  rw [portRead, if_pos]
  simp only [ho, Bool.true_and, List.all_eq_true, List.mem_range]
  intro i hi
  rw [he, portOk_nil]
  simp
  omega

/-- A byte whose access ends with an error response, or that lies beyond the 32-bit space. -/
theorem portOk_of_fails {s : State} {a : Nat} (h : Fails s a) : portOk s.errors a = false := by
  obtain ⟨r, hr, hin⟩ := h
  have hr' : ¬ ∀ r ∈ s.errors, (!(decide (r.1 ≤ a) && decide (a < r.1 + r.2))) = true := fun hn => by
    simpa [hin.1, hin.2] using hn r hr
  simp only [portOk, Bool.and_eq_false_iff]
  exact .inr (by simpa [List.all_eq_true] using hr')

/-- A read that meets an error response gives nothing. -/
theorem portRead_fails {a n i : Nat} {s : State} (hi : i < n) (h : Fails s (a + i)) : portRead a n s = none := by
  have hno : ((List.range n).all fun i => portOk s.errors (a + i)) = false :=
    List.all_eq_false.2 ⟨i, List.mem_range.2 hi, by simp [portOk_of_fails h]⟩
  rw [portRead, hno, Bool.and_false, if_neg (by decide)]

/-- The bytes a record assigns, where each of them can be reached; the others do not matter. -/
theorem portReadSome_ok {assigned : Nat → Bool} {a n : Nat} {s : State} (ho : portOpen s = true)
    (h : ∀ i < n, assigned i = true → portOk s.errors (a + i) = true) :
    portReadSome assigned a n s = some (recordBytes assigned s.mem a n) := by
  rw [portReadSome, if_pos]
  simp only [ho, Bool.true_and, List.all_eq_true, List.mem_range, Bool.or_eq_true, Bool.not_eq_true']
  intro i hi
  cases hb : assigned i
  · exact .inl rfl
  · exact .inr (h i hi hb)

/-- A record one of whose assigned bytes meets an error response gives nothing. -/
theorem portReadSome_fails {assigned : Nat → Bool} {a n i : Nat} {s : State} (hi : i < n) (ha : assigned i = true)
    (h : Fails s (a + i)) : portReadSome assigned a n s = none := by
  have hno : ((List.range n).all fun i => !assigned i || portOk s.errors (a + i)) = false :=
    List.all_eq_false.2 ⟨i, List.mem_range.2 hi, by simp [ha, portOk_of_fails h]⟩
  rw [portReadSome, hno, Bool.and_false, if_neg (by decide)]

@[simp] theorem recordBytes_length (assigned : Nat → Bool) (mem : List Host.Cell) (a n : Nat) :
    (recordBytes assigned mem a n).length = n := by simp [recordBytes]

/-- Everything a write of the part can do: bytes in canonical memory, and after them an entry to FAULTED or not. -/
theorem writeFrom_cases : ∀ (bs : List Byte) (a : Nat) (s : State), ∃ m,
    (writeFrom a bs s = { s with mem := m } ∨ writeFrom a bs s = enterFaulted { s with mem := m })
      ∧ (Memory.wf s.mem = true → Memory.wf m = true)
  | [], _, s => ⟨s.mem, .inl rfl, id⟩
  | b :: bs, a, s => by
    rw [writeFrom]
    split
    · obtain ⟨m, h, hw⟩ := writeFrom_cases bs (a + 1) { s with mem := Memory.write s.mem a b }
      exact ⟨m, h, fun h' => hw (write_wf _ _ h')⟩
    · exact ⟨s.mem, .inr rfl, id⟩

theorem portWrite_cases (a : Nat) (bs : List Byte) (s : State) : ∃ m,
    (portWrite a bs s = { s with mem := m } ∨ portWrite a bs s = enterFaulted { s with mem := m })
      ∧ (Memory.wf s.mem = true → Memory.wf m = true) := by
  unfold portWrite
  split
  · exact writeFrom_cases bs a s
  · exact ⟨s.mem, .inl rfl, id⟩

/-- The port keeps the canonical form. -/
theorem portWrite_wf {a : Nat} {bs : List Byte} {s : State} (h : Memory.wf s.mem = true) :
    Memory.wf (portWrite a bs s).mem = true := by
  obtain ⟨m, h' | h', hw⟩ := portWrite_cases a bs s
  · rw [h']; exact hw h
  · rw [h', enterFaulted_mem]; exact hw h

theorem onward_of_ne {s : State} {k : State → State} (h : s.part ≠ .faulted) : onward s k = k s := by
  rw [onward, if_neg h]

theorem onward_faulted {s : State} {k : State → State} (h : s.part = .faulted) : onward s k = s := by
  rw [onward, if_pos h]

/-! ### The copy of a still -/

/-- With no copy under way the idle step changes nothing. -/
theorem stillTick_none {s : State} (h : s.still.copy = none) : stillTick s = s := by simp [stillTick, h]

/-- A line of the copy, where its store and its buffer can be reached. -/
theorem copyLine_ok {c : StillCopy} {l : Nat} {s : State} (ho : portOpen s = true) (he : s.errors = [])
    (hr : lineBase s.cfg c.store l + s.cfg.width * 2 ≤ 2 ^ 32)
    (hw : c.buffer + 64 + l * s.cfg.width * 2 + s.cfg.width * 2 ≤ 2 ^ 32) :
    let line := Memory.readList s.mem (lineBase s.cfg c.store l) (s.cfg.width * 2)
    copyLine c l s = { s with mem := storeBytes s.mem (c.buffer + 64 + l * s.cfg.width * 2) line } := by
  simp only [copyLine, portRead_ok ho he hr]
  exact portWrite_ok ho he (by rwa [readList_length])

/-- The idle step with lines of a copy left, where its store and its buffer can be reached. -/
theorem stillTick_ok {c : StillCopy} {s : State} (h : s.still.copy = some c) (hl : c.lines < s.cfg.height)
    (ho : portOpen s = true) (he : s.errors = []) (hr : lineBase s.cfg c.store c.lines + s.cfg.width * 2 ≤ 2 ^ 32)
    (hw : c.buffer + 64 + c.lines * s.cfg.width * 2 + s.cfg.width * 2 ≤ 2 ^ 32) :
    let line := Memory.readList s.mem (lineBase s.cfg c.store c.lines) (s.cfg.width * 2)
    stillTick s = { s with
      mem := storeBytes s.mem (c.buffer + 64 + c.lines * s.cfg.width * 2) line
      still := { s.still with copy := some { c with lines := c.lines + 1 } } } := by
  have hp : s.part ≠ .faulted := by intro h; simp [portOpen, h] at ho
  simp only [stillTick, h, if_pos hl]
  rw [copyLine_ok ho he hr hw, onward_of_ne (by exact hp)]

/-- Everything the idle step can do: memory in canonical form and the copy's progress, or an entry to FAULTED. -/
theorem stillTick_cases (s : State) : ∃ m c,
    (stillTick s = { s with mem := m, still := { s.still with copy := c } }
      ∨ stillTick s = enterFaulted { s with mem := m }) ∧ (Memory.wf s.mem = true → Memory.wf m = true) := by
  have enter : ∀ (m : List Host.Cell) (c : StillCopy), (Memory.wf s.mem = true → Memory.wf m = true) →
      onward (enterFaulted { s with mem := m })
          (fun s => { s with still := { s.still with copy := some { c with lines := c.lines + 1 } } })
        = enterFaulted { s with mem := m }
      ∨ onward (enterFaulted { s with mem := m })
          (fun s => { s with still := { s.still with copy := some { c with lines := c.lines + 1 } } })
        = { s with mem := m, still := { s.still with copy := some { c with lines := c.lines + 1 } } } := by
    intro m c _
    by_cases hp : s.part = .off
    · right
      have h0 : enterFaulted { s with mem := m } = { s with mem := m } := by rw [enterFaulted, if_pos (.inl hp)]
      rw [h0, onward_of_ne (by rw [hp]; decide)]
    · exact .inl (onward_faulted (by rw [enterFaulted_part, if_neg hp]))
  unfold stillTick
  split
  · exact ⟨s.mem, s.still.copy, .inl rfl, id⟩
  · rename_i c _
    split
    · obtain ⟨m, h, hw⟩ : ∃ m, (copyLine c c.lines s = { s with mem := m }
          ∨ copyLine c c.lines s = enterFaulted { s with mem := m }) ∧ (Memory.wf s.mem = true → Memory.wf m = true) := by
        unfold copyLine
        split
        · exact ⟨s.mem, .inr rfl, id⟩
        · exact portWrite_cases _ _ _
      obtain h | h := h
      · rw [h]
        by_cases hp : s.part = .faulted
        · rw [onward_faulted (by exact hp)]
          exact ⟨m, s.still.copy, .inl rfl, hw⟩
        · rw [onward_of_ne (by exact hp)]
          exact ⟨m, some { c with lines := c.lines + 1 }, .inl rfl, hw⟩
      · rw [h]
        obtain h' | h' := enter m c hw
        · exact ⟨m, s.still.copy, .inr h', hw⟩
        · exact ⟨m, some { c with lines := c.lines + 1 }, .inl h', hw⟩
    · exact ⟨s.mem, s.still.copy, .inl rfl, id⟩

/-! ### Completions -/

/-- The answer to a request, where its slot can be reached: every write of R13 and RESULT, nothing else. -/
theorem complete_ok {slot code w0 w1 : Nat} {s : State} (ho : portOpen s = true) (he : s.errors = [])
    (hl : slot + 16 ≤ 2 ^ 32) : complete slot code w0 w1 s = answered slot code w0 w1 s := by
  have hp : s.part ≠ .faulted := by intro h; simp [portOpen, h] at ho
  rw [complete, if_neg hp, portWrite_ok ho he (by simp; omega), onward_of_ne (by exact hp),
    portWrite_ok (by exact ho) (by exact he) (by simp [le32]; omega), onward_of_ne (by exact hp),
    portWrite_ok (by exact ho) (by exact he) (by simp; omega), onward_of_ne (by exact hp)]
  rfl

theorem onward_wf {s : State} {k : State → State} (h : Memory.wf s.mem = true)
    (hk : Memory.wf s.mem = true → Memory.wf (k s).mem = true) : Memory.wf (onward s k).mem = true := by
  unfold onward
  split
  · exact h
  · exact hk h

/-- A completion keeps the canonical form. -/
theorem complete_wf {slot code w0 w1 : Nat} {s : State} (h : Memory.wf s.mem = true) :
    Memory.wf (complete slot code w0 w1 s).mem = true := by
  unfold complete
  split
  · exact h
  · exact onward_wf (portWrite_wf h) fun h => onward_wf (portWrite_wf h) fun h => onward_wf (portWrite_wf h) id

/-! ### Events -/

/-- Memory after an event has been written at the cursor (R167). -/
def eventMem (e : Event) (s : State) : List Host.Cell :=
  let a := s.cfg.eventBase + 48 * s.list.evIndex
  storeBytes (storeBytes s.mem (a + 1) (eventBytes e s.playout.frames s.chainage.x)) a [byte s.list.evLap]

/-- The state after an event has been written at the cursor (R167). -/
def eventWritten (e : Event) (s : State) : State :=
  setAttention attEvent (advanceEventCursor { s with mem := eventMem e s })

theorem padTo_length (n : Nat) (bs : List Byte) : (padTo n bs).length = n := by
  simp [padTo]

theorem eventBytes_length (e : Event) (f : Word) (x : Int) : (eventBytes e f x).length = 47 := by
  simp [eventBytes, le32, le32i, padTo_length]

theorem writeEvent_ok {e : Event} {s : State} (ho : portOpen s = true) (he : s.errors = [])
    (hl : s.cfg.eventBase + 48 * s.list.evIndex + 48 ≤ 2 ^ 32) : writeEvent e s = eventWritten e s := by
  have hp : s.part ≠ .faulted := by intro h; simp [portOpen, h] at ho
  simp only [writeEvent]
  rw [portWrite_ok ho he (by rw [eventBytes_length]; omega), onward_of_ne (by exact hp),
    portWrite_ok (by exact ho) (by exact he) (by simp; omega), onward_of_ne (by exact hp)]
  exact rfl

/-- What the list engine does with an event where the event list can be reached: it is written, or missed. -/
theorem emit_ok {e : Event} {s : State} (hp : s.part = .running ∨ s.part = .halting ∨ s.part = .halted)
    (he : s.errors = []) (ha : s.areaBase + 0x284 ≤ 2 ^ 32)
    (hl : s.cfg.eventBase + 48 * s.list.evIndex + 48 ≤ 2 ^ 32) :
    emit e s = if usedCount s (u32 (Memory.readList s.mem (s.areaBase + 0x280) 4) 0) < s.cfg.eventCount - 1
      then eventWritten e s else missEvent e s := by
  have ho : portOpen s = true := by obtain h | h | h := hp <;> simp [portOpen, h]
  unfold emit
  rw [portRead_ok ho he (by omega)]
  obtain h | h | h := hp <;> simp only [h] <;> split <;> first | exact writeEvent_ok ho he hl | rfl

end Sys2Proof.Laws
end

