-- ==== Sys2Proof/WellFormed.lean ====
section
/-! DEFINITION. Which commands can stand for a happening at the EC-740 at all: operand values outside these checks
name nothing the manual describes. `exec` is total and does not consult them; senders do. -/

namespace Sys2Proof.WellFormed

/-- A register offset of the local bus: a 32-bit aligned offset (manual section 12.1). -/
def registerOffset (offset : Nat) : Bool := offset % 4 == 0

/-- Each block takes an output frame start once. -/
def frameOrder (order : List FrameBlock) : Bool := order.all fun b => order.count b == 1

/-- A transaction has at most 32 write bytes (manual section 9.3). -/
def ackCount (acked : Nat) : Bool := acked ≤ 32

/-- A transaction reads at most 32 bytes (manual section 9.3). -/
def readBytes (read : List Byte) : Bool := read.length ≤ 32

/-- The bytes of one message from its start byte on: at least one, at most 1 + 3 + 32 + 2 (R128). -/
def messageBytes (bytes : List Byte) : Bool := 1 ≤ bytes.length && bytes.length ≤ 38

/-- A failing outcome (R102, R152). -/
def failing (o : BusOutcome) : Bool := o != .success

/-- HB_DAT is read before the first pulse of a recovery and after each of at most nine (R146). -/
def recoveryReadings (reads : List Bool) : Bool := 1 ≤ reads.length && reads.length ≤ 10

/-- A poll table entry number (R140). -/
def pollEntry (j : Nat) : Bool := j < 8

end Sys2Proof.WellFormed

namespace Sys2Proof

/-- The check of a whole command. -/
def wellFormed : Instr → Bool
  | .registerWrite offset _ => WellFormed.registerOffset offset
  | .outputFrameStart order => WellFormed.frameOrder order
  | .busReset acked => WellFormed.ackCount acked
  | .gainWriteFailed _ o => WellFormed.failing o
  | .reel _ b => WellFormed.messageBytes b
  | .chainageResync _ b => WellFormed.messageBytes b
  | .powerGrant _ b => WellFormed.messageBytes b
  | .operatorText _ b => WellFormed.messageBytes b
  | .keepalive _ b => WellFormed.messageBytes b
  | .surfaceMessage _ b => WellFormed.messageBytes b
  | .haltDrive _ b => WellFormed.messageBytes b
  | .releaseDrive _ b => WellFormed.messageBytes b
  | .messageDropped b framingError => framingError || WellFormed.messageBytes b
  | .messageDiscarded b => WellFormed.messageBytes b
  | .arbitrationLost _ acked => WellFormed.ackCount acked
  | .busStuck _ acked => WellFormed.ackCount acked
  | .busTransactionEnd _ _ acked read => WellFormed.ackCount acked && WellFormed.readBytes read
  | .pollFailing _ o => WellFormed.failing o
  | .pollDue _ j => WellFormed.pollEntry j
  | .recoveryEnd _ reads _ _ => WellFormed.recoveryReadings reads
  | .start | .halt | .softReset | .listResync | .workBaseWrite _ | .attentionWrite _ | .attentionMaskWrite _
  | .powerOnReset | .configurationLoad _ | .regionPreparation _ | .memoryError _ | .listPollTimerExpiry
  | .scanSlot _ | .badKind | .lampSet | .exposureSet | .chainageRun | .chainageCalibrate | .markSet | .driveHold
  | .frameHold | .frameRelease | .snapshot | .overlayWrite | .overlayStyle | .fontLoad | .busTransfer | .pollSet
  | .uplinkSend | .latchClear | .captureStall | .captureDue | .triggerEnd | .frameValidRise | .pixelLine _ _
  | .frameValidFall _ | .frameComplete _ | .captureDeadlineExpiry | .sensorLos _ | .tempStale _ | .rxGapTimeout
  | .linkLost | .headStatus | .uplinkTransmitStart | .uplinkSendEnd | .busForeignStart | .busForeignStop
  | .busBusyTimeout _ | .stillCopyEnd _ | .startByte => true

end Sys2Proof
end

