-- ==== Sys2Proof/Tests/Slice0.lean ====
section
/-! SUPPORT. Tests: the smoke test of WellFormed, worked cases of the manual, and for every statement with hypotheses the
states that meet them. Expected values come from the manual's text, named in each comment. -/

namespace Sys2Proof.Tests

-- One theorem at a time: many at once open more threads than a bounded memory has stacks for.
set_option Elab.async false

open Sys2Proof.Machine Sys2Proof.Safety

/-! ### WellFormed: for each check a term it refuses -/

theorem test_wf_register_offset : wellFormed (.registerWrite 0x06 0) = false := by decide
theorem test_wf_frame_order : wellFormed (.outputFrameStart [.lamp, .link, .lamp]) = false := by decide
theorem test_wf_ack_count : wellFormed (.arbitrationLost 0 33) = false := by decide
theorem test_wf_read_bytes : wellFormed (.busTransactionEnd 0 .success 0 (List.replicate 33 0)) = false := by decide
theorem test_wf_message_empty : wellFormed (.keepalive 0 []) = false := by decide
theorem test_wf_message_long : wellFormed (.reel 0 (List.replicate 39 0xC5)) = false := by decide
theorem test_wf_failing : wellFormed (.pollFailing 0 .success) = false := by decide
theorem test_wf_poll_entry : wellFormed (.pollDue 0 8) = false := by decide
theorem test_wf_recovery_readings : wellFormed (.recoveryEnd 0 [] false true) = false
    ∧ wellFormed (.recoveryEnd 0 (List.replicate 11 false) false true) = false := by decide
theorem test_wf_accepts : wellFormed (.pollDue 0 7) = true ∧ wellFormed (.registerWrite 0x10 0) = true
    ∧ wellFormed (.messageDropped [] true) = true := by decide

/-- No row of the table has bits, so no word spells a command. -/
theorem test_no_word_spells_a_command (nbits w : Nat) (s : State) :
    decodeTableWord nbits w = none ∧ s.withFetchWord nbits w = s := ⟨rfl, rfl⟩

/-! ### Worked cases of the manual -/

/-- R129: the check value of the CRC over the bytes 0x31 to 0x39. -/
theorem test_crc_check_value :
    crcOf [0x31, 0x32, 0x33, 0x34, 0x35, 0x36, 0x37, 0x38, 0x39] = 0x29B1 := by decide +kernel

/-- Section 7.8: the unit before its first REEL. -/
def crawler : Chainage :=
  { run := .running, originValid := true, countReceived := true, originCount := 4294960000, lastCount := 4294960000
    scale := 33030, stepLimit := 10000, markInterval := 5000, nextMark := some 5000, stopTarget := some 16100 }

theorem test_candidates :
    rawCandidate crawler 4294959800 = -101 ∧ rawCandidate crawler 12000 = 9725 ∧ rawCandidate crawler 24450 = 16000
      ∧ rawCandidate crawler 524288 = 267917 ∧ rawCandidate crawler 24700 = 16126 := by decide +kernel

theorem test_glitch_is_out_of_step : withinStep { crawler with x := 16000 } 267917 = false
    ∧ withinStep { crawler with x := -101 } 9725 = true := by decide

theorem test_marks_crossed : marksCrossed { crawler with x := 16000 } 10000 = 2
    ∧ marksCrossed { crawler with x := 267917 } 20000 = 50
    ∧ markBeyond crawler 20000 50 = 270000 := by decide

/-- Section 4.8, stamp texts. -/
theorem test_stamp_texts :
    stampText 9725 false false = [0x20, 0x20, 0x20, 0x20, 0x20, 0x39, 0x2E, 0x37, 0x33, 0x6D]
      ∧ stampText (-5) false false = [0x20, 0x20, 0x20, 0x20, 0x2D, 0x30, 0x2E, 0x30, 0x31, 0x6D]
      ∧ stampText 9999994 false true = [0x3E, 0x20, 0x39, 0x39, 0x39, 0x39, 0x2E, 0x39, 0x39, 0x6D]
      ∧ stampText (-999994) true true = [0x48, 0x20, 0x2D, 0x39, 0x39, 0x39, 0x2E, 0x39, 0x39, 0x6D] := by decide +kernel

/-- R61: Y 235 at opacity 12 over a luma byte of 40 gives 186. -/
theorem test_blend : blend { y := 235, cb := 128, cr := 128, opacity := 12 } .luma 40 = 186 := by decide +kernel

/-- Sections 5.10 and 5.11: the lamps of the worked cases. -/
def lamps (mode : LampMode) : Lamp :=
  let auto : Channel := { mode := mode, control := .auto, iFull := 500 }
  let manual : Channel := { mode := .steady, iFull := 300, manual := 512 }
  { channels := [auto, auto, auto, auto, manual, manual], wantedL := 900, budget := 1800, ceiling := 1023 }

theorem test_budget_shared :
    lampLevels .running 0 (lamps .steady) = ⟨[765, 765, 765, 765, 512, 512], 765, 765⟩
      ∧ (lampUpdate .running 0 (lamps .steady)).1.total = 1798 := by decide +kernel

theorem test_ceiling_then_grant :
    lampLevels .running 0 { lamps .steady with ceiling := 665 } = ⟨[665, 665, 665, 665, 512, 512], 765, 665⟩
      ∧ lampLevels .running 0 { lamps .steady with ceiling := 665, budget := 1200 }
          = ⟨[458, 458, 458, 458, 512, 512], 458, 458⟩ := by decide +kernel

theorem test_strobe_duty :
    lampLevels .running 0 { lamps .strobe with wantedL := 1023, dutyT := 40000, dutyCap := 52000 }
      = ⟨[994, 994, 994, 994, 512, 512], 994, 994⟩ := by decide +kernel

/-- R90: a boost level that only the ceiling brings down sets the clamp flag (log entry 36). -/
theorem test_boost_under_ceiling :
    let boosted := { lamps .steady with boost := true, budget := 12000, ceiling := 665 }
    (lampUpdate .running 900 boosted).1.clamp = true ∧ (lampUpdate .running 665 boosted).1.clamp = false
      ∧ (lampUpdate .running 900 { boosted with boost := false }).1.clamp = false := by decide +kernel

/-- Section 5.12: the ceiling at a run of readings. -/
theorem test_thermal_ceiling :
    let cfg : Cfg := { tDerate := 120, tCut := 170, hysteresis := 10, floor := 128 }
    thermalCeiling cfg {} = 128 ∧ thermalCeiling cfg { temp := some 110 } = 1023
      ∧ thermalCeiling cfg { temp := some 140 } = 665 ∧ cutLatch cfg false 172 = (true, [Event.thermalCut 172 170])
      ∧ cutLatch cfg true 165 = (true, []) ∧ cutLatch cfg true 160 = (false, [Event.thermalRestore 160])
      ∧ thermalCeiling cfg { temp := some 160 } = 307 := by decide +kernel

/-- Section 6.7: the settings of the worked cases. -/
def loop : Exposure :=
  { mode := .auto, tMin := 100, tPref := 10000, tMax := 60000, gMax := 2048, lMin := 64, lMax := 1023, target := 110
    tolerance := 4, damping := 8 }

theorem test_loop_cases :
    loopPlan loop 765 { seq := 0, t := 10000, gain := 256, level := 600, mean := 55, boost := false, los := false }
        = ⟨765, 11765, 256⟩
      ∧ loopPlan loop 765 { seq := 0, t := 11765, gain := 256, level := 765, mean := 79, boost := false, los := false }
        = ⟨765, 14074, 256⟩ := by decide +kernel

/-- R152: the bytes 0x55, 0x7F read as 85.0 °C, in half-degrees. -/
theorem test_temperature : temperatureOf [0x55, 0x7F] = 170 := by decide +kernel

/-- R142: a write of one byte and a read of two, as the bits stand on the bus, most significant first; the part
acknowledges the first byte read alone. -/
theorem test_transaction_signals :
    let eight := fun b => busBits b
    Txn.signals { owner := .poll 0 false, address := 0x48, write := [0x05], readLen := 2 } .success false 1 [0x55, 0x7F]
      = [.start] ++ (eight 0x90).map .sends ++ [.deviceAcks true] ++ (eight 0x05).map .sends ++ [.deviceAcks true]
        ++ [.repeatedStart] ++ (eight 0x91).map .sends ++ [.deviceAcks true] ++ (eight 0x55).map .receives
        ++ [.partAcks true] ++ (eight 0x7F).map .receives ++ [.partAcks false, .stop]
      ∧ eight 0x90 = [true, false, false, true, false, false, false, false] := by decide +kernel

/-- R146: HB_DAT found high after the third pulse; low after all nine; the clock stuck after one. -/
theorem test_recovery :
    recoveryOf [false, false, false, true] false true = some .succeeded
      ∧ recoveryOf (List.replicate 10 false) false false = some (.failed true false)
      ∧ recoveryOf [false] true true = some (.failed false true) ∧ recoveryOf [false, false] false false = none := by
  decide

/-- Section 12.2, R175: the bytes 0x16 and 0x17 lie between the height and the stride and are assigned to neither. -/
theorem test_config_gap_not_read :
    configAssigns 0x15 = true ∧ configAssigns 0x16 = false ∧ configAssigns 0x17 = false ∧ configAssigns 0x18 = true := by
  decide

/-- R84: an AUTO channel of full-scale current 0 keeps its capped wanted level beside one that the budget holds down. -/
theorem test_auto_without_current_keeps_level :
    let auto := fun i : Nat => ({ mode := .steady, control := .auto, iFull := i } : Channel)
    (lampLevels .running 0 { channels := [auto 1000, auto 0], wantedL := 900, budget := 500, ceiling := 800 }).levels
      = [511, 800] := by decide +kernel

/-- Section 12.1: IDENT. -/
theorem test_ident : readRegister State.reset 0 = 0x0E740100 := rfl

/-! ### States -/

/-- A small configuration: four slots, four event entries, three stores of a 2 by 1 picture. -/
def cfg : Cfg :=
  { slots := 4, eventCount := 4, listBase := 0x1000, eventBase := 0x2000, ringBase := 0x4000, stores := 3, width := 2
    height := 1, stride := 128, tSmin := 5000, tRo := 1000, guardMs := 1, winWidth := 2, winHeight := 1, cadence := 25
    stallLimit := 2, pollMs := 10, scale := 1, stillLevel := 900, tDerate := 160, tCut := 200, hysteresis := 10
    floor := 200, linkLossHold := true, unitMatch := 0x12, unitMask := 0xFF, management := true, cadenceK := 2
    silenceMs := 500, retryLimit := 2, busyMs := 10, poll := List.replicate 8 {} }

/-- A part in RUNNING under that configuration. -/
def up : State :=
  { workBase := 0x10000, part := .running, cfg := cfg, cfgTaken := true, areaBase := 0x10000
    playout := { timer := some 40000, frames := 7 }
    lamp := { channels := { mode := .steady, control := .auto, iFull := 700, manual := 500 } ::
                { mode := .strobe, control := .manual, iFull := 3000, manual := 400 } :: List.replicate 4 {}
              budget := 3000, temp := some 40, ceiling := 1023 }
    exposure := { mode := .auto, tMin := 20, tPref := 4000, tMax := 9000, gMax := 1024, lMin := 10, lMax := 1000
                  target := 100, tolerance := 4, damping := 8, planL := 300, planT := 4000, planG := 256, lCap := 1000 }
    chainage := { x := 1234, baseX := 1000, reasons := { notRunning := false } }
    link := { state := .up, silence := some 500000 } }

/-- A request of a kind, in the slot at 0x1000, with its first argument bytes. -/
def req (kind : Nat) (bs : List Byte) : Request := { slot := 0x1000, kind := kind, args := padTo 48 bs }

/-- A scan of `s` holds a request. -/
def holding (s : State) (r : Request) : State := { s with list := { s.list with scanning := true, handed := some r } }

theorem up_regionsOk : RegionsOk up := by unfold RegionsOk; decide

theorem up_busReachable : BusReachable up := by unfold BusReachable; decide

/-- With the eight entries and no transfer waiting the head bus unit has what it needs. -/
theorem busReachable_of (s : State) (hp : s.bus.polls.length = 8) (hq : s.bus.queue = []) : BusReachable s := by
  unfold BusReachable; simp [hp, hq]

theorem inPart_regionsOk (p : PartState) (s : State) (h : RegionsOk s) : RegionsOk (setPart p s) := h

/-- Every request of a state like `up` in hand meets `InHand`. -/
theorem holding_inHand (kind : Nat) (bs : List Byte) (s : State) (hp : s.part = .running)
    (hw : s.list.resyncWaiting = false) (hr : RegionsOk s) : InHand kind (req kind bs) (holding s (req kind bs)) :=
  ⟨hp, rfl, rfl, hw, hr, by show 0x1000 + 64 ≤ 2 ^ 32; decide⟩

/-- A request in hand of `up` itself. -/
theorem up_inHand (kind : Nat) (bs : List Byte) : InHand kind (req kind bs) (holding up (req kind bs)) :=
  holding_inHand kind bs up rfl rfl up_regionsOk

theorem apart_of_le (a b : Nat × Nat) (h : a.1 + a.2 ≤ b.1) : Apart a b := by unfold Apart InRange; omega

theorem apart_of_ge (a b : Nat × Nat) (h : b.1 + b.2 ≤ a.1) : Apart a b := by unfold Apart InRange; omega

/-- What a command's next state satisfies. -/
def after (o : Host.Outcome State Fault Refusal) (p : State → Bool) : Bool :=
  match o with
  | .next t => p t
  | _ => false

/-! ### One step on a small state -/

/-- The block idles on an empty queue (log entry 1). -/
theorem test_empty_queue_idles : step up = .next up := rfl

/-- R164, R165: while a copy is under way the idle step moves one line of the picture (log entry 11). -/
theorem test_copy_moves_a_line :
    let c : StillCopy := { origin := .mark, entry := 0, buffer := 0x8000, store := 2, seq := 9, lines := 0 }
    after (step { up with mem := storeBytes [] 0x4140 [1, 2, 3, 4], still := { copy := some c } })
      (fun t => Memory.readList t.mem 0x8040 4 == [1, 2, 3, 4] && t.still.copy == some { c with lines := 1 }) = true := by
  decide +kernel

/-- R42, R43: one byte of fill, and none beyond the picture of 2 by 1 pixels. -/
theorem test_video_bounds :
    let s := { up with cfg := { cfg with fillCb := 5 }, playout := { up.playout with video := .fill false } }
    videoByte s 0 0 0 = some 5 ∧ videoByte s 2 0 0 = none ∧ videoByte s 0 1 0 = none ∧ videoByte s 0 0 2 = none := by
  decide +kernel

/-- R64, R67: CLEAR_LAYER leaves the ten cells of the stamp field, whatever their layer. -/
theorem test_clear_layer_skips_stamp :
    let o : Overlay := { cells := List.replicate 12 { ch := 1, layer := 0 } }
    (clearLayer cfg 0 o).w0 = 2 ∧ (clearLayer cfg 0 o).overlay.cells.head? = some { ch := 1, layer := 0 }
      ∧ (clearLayer cfg 0 o).overlay.cells.getLast? = some { ch := 0x20, layer := 0 } := by decide +kernel

/-- Section 11.6: with used count E − 1 the event is missed; with read index 20 it is written and the lap turns. -/
theorem test_event_list_full :
    let s := { up with cfg := { cfg with eventCount := 32 }, list := { up.list with evIndex := 31 } }
    (emit (Event.budgetClamp 1 2 3) s).list.missed = 0x10000 ∧ (emit (Event.budgetClamp 1 2 3) s).list.evIndex = 31
      ∧ (emit (Event.linkLost .up 5) { s with mem := [(0x10280, 20)] }).list.evIndex = 0
      ∧ (emit (Event.linkLost .up 5) { s with mem := [(0x10280, 20)] }).list.evLap = 1 := by decide +kernel

/-- Section 1.5, scan 1: a BUS_TRANSFER that finds four transfers waits at the head of the line. -/
theorem test_head_of_line :
    unitRoom kBusTransfer { up with bus := { up.bus with queue := List.replicate 4 ⟨0, 0, false, 0, 0, 0, 0, []⟩ } } = false
      ∧ unitRoom kBusTransfer { up with bus := { up.bus with queue := List.replicate 3 ⟨0, 0, false, 0, 0, 0, 0, []⟩ } }
          = true := by decide

/-- Section 3.7, 40 ms: of 801 and 802 the port shows 802, and 801 is counted as not shown. -/
theorem test_playout_skips :
    let s := { up with
      ring := [{ state := .complete, seq := 801 }, { state := .complete, seq := 802 }, {}]
      playout := { up.playout with lastShown := 800 } }
    (blockFrame .playout s).playout.shown = some 1 ∧ (blockFrame .playout s).playout.notShown = 1
      ∧ (blockFrame .playout s).playout.lastShown = 802 := by decide +kernel

/-- Section 3.6, 50 ms: the underrun that reaches the stall limit opens the episode and shows fill. -/
theorem test_stall :
    after (exec .captureStall { up with playout := { up.playout with consec := 1, shown := some 0, lastShown := 699 } })
      (fun t => t.playout.stallOpen && t.playout.stallLatch && t.playout.shown == none && t.playout.consec == 2)
      = true := by decide +kernel

/-- Section 7.8: REEL 12,000 after the wrap. -/
theorem test_reel :
    after (exec (.reel 0 (wireBytes 0xFF 0x01 [0, 0, 0x2E, 0xE0, 0]))
        { up with chainage := { crawler with x := -101, reasons := { notRunning := false } } })
      (fun t => t.chainage.x == 9725 && t.chainage.nextMark == some 10000 && t.chainage.rejects == 0) = true := by
  decide +kernel

/-- Section 8.6: a length byte of 64 drops the message. -/
theorem test_long_message_dropped :
    rxBytes {} [0x3A, 0xC5, 0x12, 0x02, 0x40] = ({}, []) := by decide +kernel

/-! ### States that meet the statements' hypotheses -/

theorem witness_StepTakesFrontCommand : ({ up with pending := [.halt, .start] } : State).pending = .halt :: [.start]
    ∧ up.pending = [] ∧ up.still.copy = none := ⟨rfl, rfl, rfl⟩

/-- Every part state, for every clause that names one. -/
theorem witness_part_states (p : PartState) : (setPart p up).part = p ∧ RegionsOk (setPart p up) := ⟨rfl, up_regionsOk⟩

theorem witness_RegisterWriteGivesNamedCommand :
    (0xFFFFFFF1#32).toNat % 16 = 1 ∧ (2#32).toNat % 16 = 2 ∧ (4#32).toNat % 16 = 4 ∧ (0x18#32).toNat % 16 = 8
      ∧ (0#32).toNat % 16 ∉ [1, 2, 4, 8] ∧ (3#32).toNat % 16 ∉ [1, 2, 4, 8] := by decide

theorem witness_StartEntersLoading : State.reset.part = .off ∧ (setPart .halted up).part = .halted := ⟨rfl, rfl⟩

/-- A load just begun. -/
def loadingFrom (o : StartOrigin) : Loading := { origin := o, preparing := false, listChanged := false, ringChanged := false }

/-- A part in LOADING. -/
def atLoad (l : Loading) : State := { setPart .loading up with loading := some l }

/-- A configuration record by its fields: a small list and ring, 320 by 240 pixels, every other field at its least value
that passes its check. -/
def recordFields : List (Nat × List Byte) :=
  [(0x00, [16, 0, 32, 0, 0, 0x10, 0, 0, 0, 0x20, 0, 0, 0, 0, 0x10, 0, 3, 0, 0x40, 1, 240, 0, 0, 0, 0x40, 0x58, 2, 0]),
   (0x1C, le32 5000), (0x20, le32 1000), (0x24, [1]), (0x2A, [16, 0, 8, 0, 25]), (0x30, [1]), (0x34, [10, 1]), (0x3E, [1]),
   (0x74, le16 1000), (0x7A, le16 160 ++ le16 200 ++ [10]), (0x83, [1]),
   (0x84, le32 20 ++ le32 4000 ++ le32 9000 ++ le16 256), (0x96, [16]), (0x98, le32 4000 ++ le16 256), (0xA8, [50]),
   (0xAC, [1]), (0xAE, [1])] ++ (List.range 8).map fun j => (0xB0 + 6 * j + 3, [1, 1])

/-- Memory with a record's fields at the work area of the tests. -/
def recordAt (fields : List (Nat × List Byte)) : List Host.Cell :=
  fields.foldl (fun m f => storeBytes m (0x10000 + f.1) f.2) []

/-- An empty record fails its first check. -/
theorem witness_RefusedStartReturnsAndReports (o : StartOrigin) :
    let s := atLoad (loadingFrom o)
    s.part = .loading ∧ s.loading = some (loadingFrom o) ∧ (loadingFrom o).preparing = false ∧ Memory.wf s.mem = true
      ∧ s.errors = [] ∧ s.workBase.toNat + 0x284 ≤ 2 ^ 32 ∧ ((loadingFrom o).origin = .halted → RegionsOk s)
      ∧ firstFailure (recordBytes configAssigns s.mem s.workBase.toNat 256) = some ⟨0, 5, false⟩ :=
  ⟨rfl, rfl, rfl, rfl, rfl, by show 0x10000 + 0x284 ≤ 2 ^ 32; decide, fun _ => up_regionsOk, by
    show firstFailure (recordBytes configAssigns [] 0x10000 256) = _; decide +kernel⟩

/-- A record that fails its last check alone: the role of poll entry 7. -/
theorem witness_RefusedStart_last_check :
    firstFailure (recordBytes configAssigns (recordAt (recordFields ++ [(0xDF, [2])])) 0x10000 256) = some ⟨0xDF, 1, false⟩
      ∧ Memory.wf (recordAt (recordFields ++ [(0xDF, [2])])) = true := by decide +kernel

theorem witness_AcceptedLoadTakesValues (o : StartOrigin) :
    let s := { atLoad (loadingFrom o) with mem := recordAt recordFields }
    s.part = .loading ∧ s.loading = some (loadingFrom o) ∧ (loadingFrom o).preparing = false ∧ s.errors = []
      ∧ s.workBase.toNat + 0x284 ≤ 2 ^ 32
      ∧ firstFailure (recordBytes configAssigns s.mem s.workBase.toNat 256) = none
      ∧ s.overlay.cells[0]? = some { layer := 0 } :=
  ⟨rfl, rfl, rfl, rfl, by show 0x10000 + 0x284 ≤ 2 ^ 32; decide, by
    show firstFailure (recordBytes configAssigns (recordAt recordFields) 0x10000 256) = none; decide +kernel, rfl⟩

/-- The record gives every channel, and other regions than those in force. -/
theorem witness_AcceptedLoad_clauses :
    let c := parseCfg (recordBytes configAssigns (recordAt recordFields) 0x10000 256)
    c.channels.length = 6 ∧ up.lamp.channels.length = 6 ∧ c.slots ≠ up.cfg.slots ∧ c.width ≠ up.cfg.width := by
  decide +kernel

/-- Three stores in use: held, playing, being filled. -/
def stores : List RingEntry :=
  [{ state := .complete, seq := 5, hold := true }, { state := .complete, seq := 6, playPin := true },
   { state := .filling, seq := 7 }]

/-- Section 2.6: at a changed ring geometry the hold of a store is dropped in the ring table and in its header. -/
theorem test_hold_dropped_in_header :
    let held := { up with ring := stores, mem := storeBytes [] 0x4000 [2, 1] }
    (prepareRing true held).mem = [] ∧ (storeAt (prepareRing true held) 0).hold = false
      ∧ Memory.readList (prepareRing false held).mem 0x4000 2 = [2, 1] := by decide +kernel

theorem witness_RegionPreparationEntersRunning (o : StartOrigin) (list ring : Bool) :
    let l : Loading := { loadingFrom o with preparing := true, listChanged := list, ringChanged := ring }
    let s := { atLoad l with ring := stores }
    s.part = .loading ∧ s.loading = some l ∧ l.preparing = true ∧ BusReachable s
      ∧ RegionsOk { s with list := { s.list with evIndex := if l.listChanged then 0 else s.list.evIndex } }
      ∧ l.listChanged = list ∧ l.ringChanged = ring ∧ (storeAt s 0).hold = true ∧ (storeAt s 0).state = .complete :=
  ⟨rfl, rfl, rfl, up_busReachable, by cases list <;> exact up_regionsOk, rfl, rfl, rfl, rfl⟩

/-- The next frame is due at once and finds a store, or none; or it waits. The head bus is idle, or busy with a
transaction. -/
theorem witness_RegionPreparation_next_frame :
    let l : Loading := { loadingFrom .halted with preparing := true }
    let s := { atLoad l with ring := stores }
    let full := { s with ring := s.ring.map fun e => { e with hold := true, state := .complete } }
    let wait := { s with capture := { s.capture with prevTrigger := some (100, 99999) } }
    boostWaiting s.still = false ∧ (nextPlan false s).dueAt ≤ s.now ∧ selectStore s = some 2 ∧ selectStore full = none
      ∧ (nextPlan false full).dueAt ≤ full.now ∧ wait.now < (nextPlan false wait).dueAt
      ∧ s.bus.inHand = none ∧ s.bus.state = .idle := by decide +kernel

/-- A host transfer from a slot. -/
def transfer (slot : Nat) : HostTransfer :=
  { slot := slot, address := 5, buffered := false, writeLen := 2, readLen := 1, dest := 0x9000, buffer := 0
    inline := [7, 8] }

/-- The transaction of a transfer, in hand. -/
def inHand (h : HostTransfer) : Txn := { owner := .host h, address := 5, write := [7, 8], readLen := h.readLen }

/-- R145: with a stop that falls together with the expiry, the transfer behind goes straight to ACTIVE; without one it
waits with a new busy timer. -/
theorem test_busy_timeout_with_stop :
    let h := transfer 0x1000
    let next := transfer 0x1040
    let s := { up with bus := { up.bus with
      state := .waitFree, monitorBusy := true, inHand := some (inHand h), queue := [h, next], busyTimer := some 100 } }
    after (exec (.busBusyTimeout true) s) (fun t =>
        t.bus.state == .active && !t.bus.monitorBusy && t.bus.busyTimer.isNone && t.bus.inHand == some (inHand next)) = true
      ∧ after (exec (.busBusyTimeout false) s) (fun t =>
        t.bus.state == .waitFree && t.bus.monitorBusy && t.bus.busyTimer.isSome) = true := by decide +kernel

/-- A frame plan whose moment is 3 ms. -/
def plan : FramePlan := { t := 4000, level := 300, tCap := 5000, boost := false, dueAt := 3000 }

/-- A part with work in every unit: a transfer in hand and one behind it, an order, a host message, a planned frame. -/
def working (trig : TrigState) : State :=
  { up with
    bus := { up.bus with state := .active, inHand := some (inHand (transfer 0x3000)), pendingGain := some 300
                         queue := [transfer 0x3000, transfer 0x3040] }
    still := { orders := [{ origin := .snapshot 0x3080 }, { origin := .mark }] }
    link := { up.link with queue := [{ host := some 0x30C0, kind := 0xA0, payload := [] }] }
    capture := { trig := trig, plan := some plan } }

theorem witness_HaltEndsWaitingWork (trig : TrigState) :
    let s := working trig
    let ended := (waitingTransfers s.bus).map (·.slot) ++ s.still.orders.filterMap (·.origin.slot?)
      ++ s.link.queue.filterMap (·.host)
    s.part = .running ∧ RegionsOk s ∧ s.capture.trig = trig ∧ ended = [0x3040, 0x3080, 0x30C0]
      ∧ (∀ a ∈ ended, a + 64 ≤ 2 ^ 32) ∧ (∀ a ∈ ended, ∀ b ∈ ended, b = a ∨ b + 16 ≤ a ∨ a + 16 ≤ b)
      ∧ Apart (slotHead 0x3040) (eventList s) :=
  ⟨rfl, up_regionsOk, rfl, rfl, by show ∀ a ∈ [0x3040, 0x3080, 0x30C0], a + 64 ≤ 2 ^ 32; decide, by
    show ∀ a ∈ [0x3040, 0x3080, 0x30C0], ∀ b ∈ [0x3040, 0x3080, 0x30C0], b = a ∨ b + 16 ≤ a ∨ a + 16 ≤ b; decide,
    apart_of_ge _ _ (by show 0x2000 + 48 * 4 ≤ 0x3040; decide)⟩

theorem witness_ScanEventsAndResync :
    let s := { up with list := { up.list with pollTimer := some 100 } }
    up.list.pollTimer = none ∧ s.list.pollTimer = some 100 ∧ s.part = .running ∧ s.list.listState = .active
      ∧ s.list.handed = none ∧ (holding up (req 10 [])).list.handed = some (req 10 []) ∧ (req 10 []).kind = kOverlayWrite :=
  ⟨rfl, rfl, rfl, rfl, rfl, rfl, rfl⟩

/-- A state in which one access ends with an error. -/
def failingAt (a : Nat) (s : State) : State := { s with errors := [(a, 1)] }

theorem fails_at (a : Nat) (s : State) : Fails (failingAt a s) a := ⟨(a, 1), .head _, by unfold InRange; omega⟩

/-- Every access of the statement: the configuration record; the slot a scan reads, its request and its last argument
byte; the event read index; an edit's buffer; the words of an answer. -/
theorem witness_MemoryErrorEntersFaulted :
    let load := failingAt 0x10000 (atLoad (loadingFrom .off))
    let scan := { up with list := { up.list with scanning := true }, mem := storeBytes [] 0x1000 [1, 0, 13] }
    let edit := req 12 ([0xE0, 1, 0, 0] ++ le32 0x9000)
    let edits := { up with overlay := { up.overlay with edits := [edit] } }
    (load.part = .loading ∧ load.loading = some (loadingFrom .off) ∧ (loadingFrom .off).preparing = false
        ∧ configAssigns 0 = true ∧ load.workBase.toNat = 0x10000 ∧ Fails load 0x10000)
      ∧ (∀ a, scanReady (failingAt a scan) = true ∧ Fails (failingAt a scan) a ∧ (failingAt a scan).mem = scan.mem)
      ∧ Memory.read scan.mem 0x1000 = 1 ∧ (Memory.read scan.mem 0x1001).toNat = 0 ∧ usesArgument 13 27 = true
      ∧ usesArgument 13 28 = false ∧ 0x1000 ∉ heldSlots scan
      ∧ (∀ a, Working (failingAt a up) ∧ Fails (failingAt a up) a) ∧ up.areaBase + 0x280 = 0x10280
      ∧ (∀ a, Working (failingAt a edits) ∧ Fails (failingAt a edits) a ∧ (failingAt a edits).overlay.edits = edit :: [])
      ∧ editBuffer edit = some (0x9000, 48)
      ∧ (∀ a k, (failingAt a (holding up (req k []))).list.handed = some (req k [])
          ∧ Fails (failingAt a (holding up (req k []))) a) := by
  refine ⟨⟨rfl, rfl, rfl, by decide, rfl, fails_at _ _⟩, fun a => ⟨rfl, fails_at _ _, rfl⟩, by decide +kernel, by
    decide +kernel, by decide, by decide, by decide, fun a => ⟨.inl rfl, fails_at _ _⟩, rfl,
    fun a => ⟨.inl rfl, fails_at _ _, rfl⟩, by decide +kernel, fun a k => ⟨rfl, fails_at _ _⟩⟩

/-- R49, R55: a part with no picture yet, whose first underrun opens the stall episode with an error at the event. -/
def stallFailing : State :=
  failingAt 0x10280 { up with cfg := { cfg with stallLimit := 1 }, playout := { up.playout with video := .none } }

theorem witness_MemoryError_stall : stallFailing.part.lit = true ∧ candidates stallFailing [] = []
    ∧ stallFailing.playout.stallOpen = false
    ∧ min 255 (stallFailing.playout.consec + 1) = stallFailing.cfg.stallLimit
    ∧ Fails stallFailing (stallFailing.areaBase + 0x280) :=
  ⟨rfl, by decide +kernel, rfl, rfl, fails_at _ _⟩

theorem test_stall_error_shows_fill : (blockFrame .playout stallFailing).part = .faulted
    ∧ (blockFrame .playout stallFailing).playout.video = .fill false := by decide +kernel

/-- A part whose overlay unit has two edits to apply, one with a buffer, a banner that moves and a mark flash. -/
def editing : State :=
  { up with
    cfg := { cfg with bannerEnable := true, bannerRow := 1, stampEnable := true }
    overlay := { up.overlay with
      edits := [req 11 [3, 0, 2, 0, 0x41, 0x42], req 10 ([1, 3, 0, 0, 1, 0, 0, 0] ++ le32 0x9000)]
      fifo := [0x40], scrollSpeed := 4, pan := 14, flash := 2, blinkPeriod := 10 } }

/-- The blocks' work at an output frame start leaves a part that goes on; each block's own conditions: a temperature of
age 100, a countdown at its end, the cadence below K and at K. -/
theorem witness_FrameStart_blocks :
    (let worked := (blockOrder [.link]).foldl (fun u b => blockFrame b u) editing
     Working worked ∧ RegionsOk worked)
      ∧ up.playout.timer = some 40000 ∧ BusReachable up ∧ linkActive up = true ∧ up.cfg.cadenceK ≠ 0
      ∧ up.link.cadence + 1 < up.cfg.cadenceK ∧ linkActive State.reset = false
      ∧ ([.link, .playout] : List FrameBlock).Nodup ∧ (setPart .faulted up).part = .faulted := by
  refine ⟨?_, rfl, up_busReachable, rfl, by decide, by decide, rfl, by decide, rfl⟩
  unfold Working RegionsOk; decide +kernel

theorem witness_FrameStartCountsAndReports :
    up.playout.timer = some 40000 ∧ up.loading = none ∧ Memory.wf up.mem = true ∧ up.part = .running
      ∧ up.list.listState = .active ∧ State.reset.part = .off
      ∧ Working editing ∧ RegionsOk editing ∧ (∀ e ∈ editing.overlay.edits, e.slot + 64 ≤ 2 ^ 32)
      ∧ (editing.overlay.edits.map editBuffer = [none, some (0x9000, 4)]) :=
  ⟨rfl, rfl, rfl, rfl, rfl, rfl, .inl rfl, up_regionsOk, by
    show ∀ e ∈ [req 11 [3, 0, 2, 0, 0x41, 0x42], req 10 ([1, 3, 0, 0, 1, 0, 0, 0] ++ le32 0x9000)], _; decide, by
    decide +kernel⟩

/-- Two stores fresher than the last shown sequence, in an open stall episode. -/
def fresh : State :=
  { up with ring := stores, playout := { up.playout with lastShown := 4, shown := some 2, stallOpen := true } }

theorem witness_PlayoutShows_candidate : fresh.part.lit = true ∧ RegionsOk fresh ∧ 1 ∈ candidates fresh []
    ∧ (∀ j ∈ candidates fresh [], j ≠ 1 → distance fresh (storeAt fresh j).seq < distance fresh (storeAt fresh 1).seq)
    ∧ fresh.playout.stallOpen = true := ⟨rfl, up_regionsOk, by decide +kernel, by decide +kernel, rfl⟩

theorem witness_PlayoutShows_stall :
    let s := { up with playout := { up.playout with consec := 1, shown := some 0 } }
    s.part.lit = true ∧ RegionsOk s ∧ s.playout.stallOpen = false ∧ min 255 (s.playout.consec + 1) = s.cfg.stallLimit
      ∧ candidates s [] = [] ∧ s.capture.trig ≠ .deferred :=
  ⟨rfl, up_regionsOk, rfl, rfl, by decide +kernel, by decide⟩

/-- An underrun below the stall limit with a picture shown: in REPEAT, in FILL, and in LOS. -/
theorem witness_PlayoutShows_underrun :
    let s := { up with playout := { up.playout with shown := some 0 } }
    candidates s [] = [] ∧ s.capture.trig ≠ .deferred ∧ min 255 (s.playout.consec + 1) ≠ s.cfg.stallLimit
      ∧ s.playout.stallOpen = false ∧ s.capture.los = false ∧ s.cfg.underrunFill = false
      ∧ RegionsOk { s with cfg := { cfg with underrunFill := true } }
      ∧ RegionsOk { s with capture := { s.capture with los := true } } :=
  ⟨by decide +kernel, by decide, by decide, rfl, rfl, rfl, up_regionsOk, up_regionsOk⟩

/-- The last pixel of the 2 by 1 picture and its neighbours outside; a visible cell of the banner row and one of
another row, and a pixel beyond the cells. -/
theorem witness_PlayoutShows_pixels :
    let c := { cfg with width := 37, height := 60, bannerEnable := true, bannerRow := 1 }
    let cellW := 16 * c.scale
    let cellH := 24 * c.scale
    1 < up.cfg.width ∧ up.cfg.width ≤ 2 ∧ 0 < up.cfg.height ∧ up.cfg.height ≤ 1
      ∧ (31 / cellW < min 64 (c.width / cellW) ∧ 24 / cellH < min 48 (c.height / cellH) ∧ 24 / cellH = c.bannerRow)
      ∧ 23 / cellH ≠ c.bannerRow ∧ ¬ 32 / cellW < min 64 (c.width / cellW) ∧ ¬ 48 / cellH < min 48 (c.height / cellH) := by
  decide

/-! The request list -/

/-- A scan that stands at a slot whose first bytes are given. -/
def scanning (index lap : Nat) (bs : List Byte) : State :=
  { up with
    list := { up.list with scanning := true, reqIndex := index, reqLap := lap }
    mem := storeBytes [] (0x1000 + 64 * index) bs }

theorem witness_ScanTakesNewRequest :
    (∀ s ∈ [scanning 0 0 [1, 0, 1], scanning 3 3 [1, 3, 13]], scanReady s = true ∧ s.list.reqIndex < s.cfg.slots
      ∧ s.list.reqLap < 4 ∧ Memory.read s.mem (s.cfg.listBase + 64 * s.list.reqIndex) = 1
      ∧ (Memory.read s.mem (s.cfg.listBase + 64 * s.list.reqIndex + 1)).toNat = s.list.reqLap
      ∧ s.cfg.listBase + 64 * s.list.reqIndex ∉ heldSlots s
      ∧ unitRoom (Memory.read s.mem (s.cfg.listBase + 64 * s.list.reqIndex + 2)).toNat s = true)
    ∧ RegionsOk (scanning 0 0 [1, 0, 1]) ∧ RegionsOk (scanning 3 3 [1, 3, 13])
    ∧ unitRoom 13 { scanning 3 3 [1, 3, 13] with
        bus := { up.bus with queue := List.replicate 4 (transfer 0x3000) } } = false := by
  unfold RegionsOk; decide +kernel

/-- Errors at bytes that a SNAPSHOT does not use: the fourth byte, the result words, every argument. -/
theorem witness_ScanTakes_unused_bytes :
    let s := scanning 0 0 [1, 0, 9]
    (∀ r ∈ [(0x1003, 1), (0x1008, 8), (0x1010, 48)], ∀ i < 64,
        i < 8 ∧ i ≠ 3 ∨ (16 ≤ i ∧ usesArgument 9 (i - 16) = true) → ¬ InRange r (0x1000 + i))
      ∧ unitRoom 9 s = true ∧ (Memory.read s.mem 0x1002).toNat = 9 := by unfold InRange; decide +kernel

/-- Not POSTED; still held; posted a pass ago; posted one and two passes ahead; a lap field above 3. -/
theorem witness_ScanEndsOrFaults :
    (∀ s ∈ [scanning 0 0 [3], scanning 0 0 [1, 3], scanning 3 3 [1, 2], scanning 0 0 [1, 1], scanning 3 3 [1, 1],
        scanning 0 0 [1, 4]], scanReady s = true ∧ s.list.reqIndex < s.cfg.slots ∧ s.list.reqLap < 4
          ∧ s.cfg.listBase + 64 * s.list.reqIndex ∉ heldSlots s)
    ∧ RegionsOk (scanning 3 3 [1, 2])
    ∧ 0x1000 ∈ heldSlots { scanning 0 0 [1, 0] with bus := { up.bus with queue := [transfer 0x1000] } } := by
  unfold RegionsOk; decide +kernel

/-- Payloads written out from section 12.4: MARK at 1300 (0x514), 2 crossed, X −1; STILL_MISSED ABORTED of a STOP order
with no entry. -/
theorem test_event_payloads :
    (Event.mark 1300 2 (-1)).payload = [0x14, 5, 0, 0, 2, 0, 0, 0, 0xFF, 0xFF, 0xFF, 0xFF]
      ∧ (Event.stillMissed 5 1 0xFF 9).payload = [5, 1, 0xFF, 0, 9, 0, 0, 0] := by decide +kernel

/-- The last free entry but one, and the full list. -/
theorem witness_EventWrittenOrMissed :
    let e := Event.listFault 1 2 3
    let s := { up with list := { up.list with evIndex := 2 } }
    let full := { up with list := { up.list with evIndex := 3 } }
    Working s ∧ RegionsOk s ∧ RegionsOk full ∧ e.kind < 24 ∧ e.payload.length ≤ 36
      ∧ usedCount s (u32 (Memory.readList s.mem (s.areaBase + 0x280) 4) 0) = s.cfg.eventCount - 2
      ∧ usedCount full (u32 (Memory.readList full.mem (full.areaBase + 0x280) 4) 0) = full.cfg.eventCount - 1 := by
  unfold RegionsOk Working; decide +kernel

/-- Each refused form at a boundary value. -/
theorem witness_MalformedRequestsRefused :
    5 < u8 (req 1 [6, 1]).args 0 ∧ u8 (req 1 [0, 8]).args 1 % 8 = 0
      ∧ (bitAt (req 1 [0, 1, 3]).args 1 0 = true ∧ 2 < u8 (req 1 [0, 1, 3]).args 2)
      ∧ (bitAt (req 1 [0, 2, 0, 2]).args 1 1 = true ∧ 1 < u8 (req 1 [0, 2, 0, 2]).args 3)
      ∧ 2 < u8 (req 2 [3]).args 0 ∧ 2 < u8 (req 3 [3]).args 0 ∧ 1 < u8 (req 3 [0, 2]).args 1
      ∧ u8 (req 4 [0x10]).args 0 % 16 = 0 ∧ (bitAt (req 4 [2, 2]).args 0 1 = true ∧ u8 (req 4 [2, 2]).args 1 = 2)
      ∧ u8 (req 5 [0x20]).args 0 % 32 = 0 ∧ (bitAt (req 5 [2, 2]).args 0 1 = true ∧ 1 < u8 (req 5 [2, 2]).args 1)
      ∧ (bitAt (req 5 [4, 0, 2]).args 0 2 = true ∧ 1 < u8 (req 5 [4, 0, 2]).args 2)
      ∧ 2 < u8 (req 6 [3]).args 0 := by decide +kernel

theorem witness_MalformedRequests_bus_and_link :
    let temp : State := { up with bus := { up.bus with polls := up.bus.polls.set 7 { entry := { role := .temperature } } } }
    127 < u8 (req 13 [128]).args 0 ∧ 1 < u8 (req 13 [0, 2]).args 1 ∧ 16 < u8 (req 13 [0, 0, 17]).args 2
      ∧ 32 < u8 (req 13 [0, 1, 33]).args 2 ∧ 32 < u8 (req 13 [0, 0, 0, 33]).args 3
      ∧ 7 < u8 (req 14 [8]).args 0 ∧ 127 < u8 (req 14 [0, 0, 128]).args 2 ∧ u8 (req 14 []).args 4 = 0
      ∧ 4 < u8 (req 14 [0, 0, 0, 0, 5]).args 4 ∧ 1 < u8 (req 14 [0, 0, 0, 0, 1, 0, 2]).args 6
      ∧ (∃ i < temp.bus.polls.length, i ≠ 0 ∧ (temp.bus.polls.getD i {}).entry.role = .temperature)
      ∧ u8 (req 16 [0x9F]).args 0 < 0xA0 ∧ 0xBF < u8 (req 16 [0xC0]).args 0 ∧ 32 < u8 (req 16 [0xA0, 33]).args 1
      ∧ 2 ^ 24 ≤ u32 (req 17 [0, 0, 0, 0, 0, 0, 0, 1]).args 4 ∧ ¬ (18 : Nat) ≤ 17 := by decide +kernel

/-! Requests answered within the scan -/

/-- Channel 5 with every change present, its level one above the largest. -/
theorem witness_LampSetWritesChannel :
    let r := req 1 [5, 7, 2, 1, 0, 4]
    InHand 1 r (holding up r) ∧ up.lamp.channels.length = 6 ∧ u8 r.args 0 ≤ 5 ∧ u8 r.args 1 % 8 ≠ 0 ∧ u8 r.args 2 ≤ 2
      ∧ u8 r.args 3 ≤ 1 ∧ bitAt r.args 1 2 = true ∧ u16 r.args 4 = 1024 :=
  ⟨up_inHand _ _, rfl, by decide, by decide, by decide, by decide, by decide, by decide⟩

/-- R77: a steady and a strobe output, the strobe window closed and open, and an output past the six channels. -/
theorem witness_LampOutputs :
    let s := { up with lamp := { up.lamp with strobe := true } }
    (up.lamp.channels.map (·.mode)).take 3 = [.steady, .strobe, .off] ∧ up.part ≠ .off ∧ up.part ≠ .loading
      ∧ up.lamp.strobe = false ∧ s.lamp.strobe = true ∧ up.lamp.channels.length = 6
      ∧ (List.range 3).map (fun i => (lampPin up i).isSome) = [true, false, false]
      ∧ (List.range 3).map (fun i => (lampPin s i).isSome) = [true, true, false] := by decide

/-- R122: HOLD_OUT is low in RUNNING with no reason, and high with HOST alone. -/
theorem test_hold_out : holdOut up = false
    ∧ holdOut { up with chainage := { up.chainage with reasons := { notRunning := false, host := true } } } = true := by
  decide

/-- The lamp update of the statement cuts levels, at the budget and by the ceiling. -/
theorem witness_LampUpdated :
    (lampUpdate .running 0 (lamps .steady)).1.clamp = true ∧ (lamps .steady).clamp = false
      ∧ (lampUpdate .running 0 (lamps .steady)).1.channels.length = 6 := by decide +kernel

/-- t_min above t_max by one, and equal to it. -/
theorem witness_ExposureSetTakesParameters :
    let above := req 2 ([1, 0, 1, 0] ++ le32 9001)
    let equal := req 2 ([1, 0, 1, 0] ++ le32 9000)
    let gain := req 2 ([2, 0, 0, 4] ++ List.replicate 28 0 ++ le16 300)
    InHand 2 above (holding up above) ∧ InHand 2 equal (holding up equal) ∧ BusQuiet (holding up above)
      ∧ BusReachable (holding up above)
      ∧ u8 above.args 0 ≤ 2 ∧ up.exposure.tMax < clampNat 20 200000 (u32 above.args 4)
      ∧ clampNat 20 200000 (u32 equal.args 4) = up.exposure.tMax
      ∧ after (exec .exposureSet (holding up gain)) (fun t => t.exposure.planG == 300 && t.exposure.mode == .manual)
          = true :=
  ⟨up_inHand _ _, up_inHand _ _, ⟨by decide, .inr rfl⟩, busReachable_of _ rfl rfl, by decide, by decide +kernel, by
    decide +kernel, by decide +kernel⟩

/-- A chainage unit with a count, marks and a target. -/
def tracking (c : Chainage) : State := { up with chainage := { c with reasons := { c.reasons with notRunning := false } } }

/-- A stopped unit whose zero reaches its target. -/
def parked : Chainage :=
  { x := 1234, baseX := 1000, countReceived := true, lastCount := 77, originValue := 555, markInterval := 100
    nextMark := some 1300, stopTarget := some 555, rejects := 1 }

theorem witness_ChainageRunZeroesStartsStops (k z : Byte) (hk : k.toNat ≤ 2) (hz : z.toNat ≤ 1) :
    let r := req 3 [k, z]
    InHand 3 r (holding (tracking parked) r) ∧ u8 r.args 0 ≤ 2 ∧ u8 r.args 1 ≤ 1
      ∧ InHand 3 r (holding (tracking { parked with run := .running }) r) ∧ parked.run = .stopped :=
  ⟨holding_inHand _ _ _ rfl rfl up_regionsOk, hk, hz, holding_inHand _ _ _ rfl rfl up_regionsOk, rfl⟩

/-- Nothing present; a present direction of +2; every value present and below its range; a running unit. -/
theorem witness_CalibrateRebasesAndArms :
    let r := req 4 ([15, 0xFF, 0, 0] ++ le32 0 ++ le32i (-999995) ++ le32 0)
    (∀ bs, InHand 4 (req 4 bs) (holding (tracking parked) (req 4 bs)))
      ∧ u8 (req 4 [0x10]).args 0 % 16 = 0 ∧ s8 (req 4 [2, 2]).args 1 = 2
      ∧ bitAt r.args 0 0 = true ∧ bitAt r.args 0 1 = true ∧ s8 r.args 1 = -1 ∧ s32 r.args 8 = -999995 :=
  ⟨fun _ => holding_inHand _ _ _ rfl rfl up_regionsOk, by decide, by decide, by decide, by decide, by decide, by
    decide +kernel⟩

/-- Interval 0, and a chainage that is a multiple of the interval, in both directions. -/
theorem witness_ArmingSetsNextMultiple :
    armedMark { parked with markInterval := 0 } = none
      ∧ armedMark { parked with x := 1200 } = some 1300
      ∧ armedMark { parked with x := 1200, travel := .decreasing } = some 1100
      ∧ armedMark { parked with x := -1, travel := .increasing } = some 0 := by decide

/-- A target equal to X, which is reached; an interval below its range; a target form beyond those that exist. -/
theorem witness_MarkSetReplacesAndEvaluates :
    let r := req 5 ([0x1F, 0, 0, 3] ++ le32 99 ++ le32i 1234)
    (∀ bs, InHand 5 (req 5 bs) (holding (tracking parked) (req 5 bs)))
      ∧ bitAt r.args 0 0 = true ∧ u32 r.args 4 = 99 ∧ u8 r.args 1 = 0 ∧ u8 r.args 2 = 0 ∧ s32 r.args 8 = parked.x
      ∧ parked.fired = false ∧ u8 (req 5 [0x20]).args 0 % 32 = 0 ∧ 1 < u8 (req 5 [4, 0, 2]).args 2 :=
  ⟨fun _ => holding_inHand _ _ _ rfl rfl up_regionsOk, by decide, by decide +kernel, by decide, by decide, by
    decide +kernel, rfl, by decide, by decide⟩

/-- Both hold actions and their neighbour, with LINK_LOST named in LOST and in UP. -/
theorem witness_DriveHoldSetsAndClears :
    let s := { up with link := { up.link with state := .lost } }
    (∀ bs, InHand 6 (req 6 bs) (holding s (req 6 bs)) ∧ InHand 6 (req 6 bs) (holding up (req 6 bs)))
      ∧ u8 (req 6 [2, 3]).args 0 ≤ 2 ∧ 2 < u8 (req 6 [3]).args 0 ∧ bitAt (req 6 [2, 3]).args 1 1 = true
      ∧ s.link.state = .lost :=
  ⟨fun _ => ⟨holding_inHand _ _ _ rfl rfl up_regionsOk, up_inHand _ _⟩, by decide, by decide, by decide, rfl⟩

/-- A ring whose stores are all held, pinned or filled, with capture deferred. -/
def deferred : State :=
  { up with ring := [{ state := .complete, seq := 5, hold := true }, { state := .complete, seq := 6, playPin := true },
                     { state := .complete, seq := 7, stillPin := true }]
            capture := { trig := .deferred, plan := some plan, selPtr := some 1, deferralOpen := true } }

/-- The full ring at the stall limit: the playout pin is released, and the deferred frame takes its store. -/
theorem witness_PlayoutShows_deferred :
    let s := { deferred with playout := { up.playout with lastShown := 7, shown := some 1, consec := 1 } }
    s.part.lit = true ∧ RegionsOk s ∧ candidates s [] = [] ∧ s.playout.stallOpen = false
      ∧ min 255 (s.playout.consec + 1) = s.cfg.stallLimit
      ∧ after (exec .captureStall s) (fun t => t.playout.stallOpen && t.capture.trig == .exposing
          && t.capture.selPtr == some 1) = true :=
  ⟨rfl, up_regionsOk, by decide +kernel, rfl, rfl, by decide +kernel⟩

/-- No such sequence; a held store; one more hold than N − 2; a hold that fits; a release that lets capture trigger. -/
theorem witness_FrameHoldAndRelease :
    (∀ k bs, InHand k (req k bs) (holding deferred (req k bs))) ∧ deferred.cfg.stores ≤ deferred.ring.length
      ∧ (∀ k < 3, (storeAt deferred k).seq ≠ BitVec.ofNat 32 (u32 (req 7 [4]).args 0))
      ∧ (storeAt deferred 0).hold = true ∧ heldStores deferred = deferred.cfg.stores - 2
      ∧ heldStores { deferred with ring := deferred.ring.set 0 { state := .complete, seq := 5 } } < 3 - 2
      ∧ selectStore { deferred with ring := deferred.ring.set 0 { state := .complete, seq := 5 } } = some 0
      ∧ selectStore { deferred with ring := deferred.ring.set 0 { state := .complete, seq := 5, playPin := true } } = none
      ∧ deferred.capture.trig = .deferred ∧ deferred.capture.plan.isSome = true :=
  ⟨fun _ _ => holding_inHand _ _ _ rfl rfl up_regionsOk, by decide, by decide +kernel, rfl, by decide +kernel, by
    decide +kernel, by decide +kernel, by decide +kernel, rfl, rfl⟩

/-- A mask of every kind, and one bit above. -/
theorem witness_LatchClearClearsNamedBits :
    (∀ bs, InHand 17 (req 17 bs) (holding up (req 17 bs)))
      ∧ u32 (req 17 [1, 0, 0, 0, 0xFF, 0xFF, 0xFF, 0]).args 4 = 2 ^ 24 - 1
      ∧ u32 (req 17 [0, 0, 0, 0, 0, 0, 0, 1]).args 4 = 2 ^ 24 := ⟨fun _ => up_inHand _ _, by decide +kernel, by decide +kernel⟩

/-! Requests that wait in a unit -/

theorem witness_QueuedRequestsWait :
    (∀ k bs, InHand k (req k bs) (holding (working .waiting) (req k bs)) ∧ InHand k (req k bs) (holding up (req k bs)))
      ∧ (working .waiting).still.orders.length = 2 ∧ up.still.orders.length < 2
      ∧ u8 (req 16 [0xBF, 32]).args 0 = 0xBF ∧ u8 (req 16 [0xBF, 32]).args 1 = 32 :=
  ⟨fun _ _ => ⟨holding_inHand _ _ _ rfl rfl up_regionsOk, up_inHand _ _⟩, rfl, by decide, by decide, by decide⟩

/-- Edits at the last place they fit and one beyond: text at the end of the grid, a cell edit of row 47, a palette and
a font load at their ends, and each refused neighbour. -/
theorem witness_QueuedRequests_edits :
    let bad := fun k bs => (applyEdit cfg (req k bs) none up.overlay).code = 3
    (applyEdit cfg (req 10 [0, 47, 63, 0, 1, 0, 0x41, 7]) none up.overlay).w0 = 1
      ∧ (applyEdit cfg (req 10 [0, 47, 63, 0, 2, 0, 0x41, 7]) none up.overlay).w1 = 1
      ∧ bad 10 [0, 48, 0, 0, 1] ∧ bad 10 [0, 47, 64, 0, 1] ∧ bad 10 [5] ∧ bad 10 [4, 0, 0, 3]
      ∧ (applyEdit cfg (req 11 [0, 8, 8]) none up.overlay).code = 0 ∧ bad 11 [0, 9, 8] ∧ bad 11 [0, 0, 9] ∧ bad 11 [0, 0, 0]
      ∧ bad 11 [1, 8] ∧ bad 11 [1, 1, 16] ∧ bad 11 [3, 0, 0] ∧ bad 11 [5, 16, 0] ∧ bad 11 [6]
      ∧ editBuffer (req 12 ([0xFF, 1, 0, 0] ++ le32 0x9000)) = some (0x9000, 48)
      ∧ bad 12 ([0xDF, 1, 0, 0] ++ le32 0x9000) ∧ bad 12 ([0xE0, 0, 0, 0] ++ le32 0x9000)
      ∧ bad 12 ([0xE0, 1, 0, 0] ++ le32 0x9002) := by decide +kernel

theorem witness_HaltingHandOverAborts (k : Nat) (bs : List Byte) :
    let s := holding (setPart .halting up) (req k bs)
    s.part = .halting ∧ s.list.handed = some (req k bs) ∧ s.list.resyncWaiting = false ∧ RegionsOk s
      ∧ (req k bs).slot + 64 ≤ 2 ^ 32 ∧ Apart (slotHead (req k bs).slot) (eventList s)
      ∧ transferRefused (req 13 [127, 1, 32, 32]).args = false ∧ uplinkRefused (req 16 [0xA0]).args = false :=
  ⟨rfl, rfl, rfl, up_regionsOk, by show 0x1000 + 64 ≤ 2 ^ 32; decide,
    apart_of_le _ _ (by show 0x1000 + 16 ≤ 0x2000; decide), by decide, by decide⟩

/-- The quick requests in HALTING: forms that are neither refused nor clamped, and a head bus unit with nothing to do. -/
theorem witness_HaltingHandOver_quick :
    up.chainage.autoStop = false ∧ bitAt (req 5 [0x0F]).args 0 4 = false ∧ up.capture.trig ≠ .deferred
      ∧ exposureSetRefused (req 2 [1]).args up.exposure = false ∧ up.bus.inHand = none ∧ up.bus.state = .idle
      ∧ up.bus.pendingGain = none ∧ ((0 : Nat) = 0 ∨ (17 : Nat) < 0) := by decide +kernel

/-- The largest lengths from the slot and from a buffer, on a free unit and behind a transaction. -/
theorem witness_BusTransferJoinsQueue :
    let r := req 13 [127, 0, 16, 32]
    let b := req 13 [127, 1, 32, 32, 0, 0x90, 0, 0, 0, 0x80, 0, 0]
    (∀ bs, InHand 13 (req 13 bs) (holding up (req 13 bs)) ∧ InHand 13 (req 13 bs) (holding (working .idle) (req 13 bs)))
      ∧ u8 r.args 0 ≤ 127 ∧ u8 r.args 1 = 0 ∧ u8 r.args 2 ≤ 16 ∧ u8 r.args 3 ≤ 32 ∧ u8 b.args 1 = 1 ∧ u8 b.args 2 ≤ 32
      ∧ u32 b.args 8 + u8 b.args 2 ≤ 2 ^ 32 ∧ up.bus.inHand = none ∧ up.bus.state = .idle ∧ up.bus.queue = []
      ∧ up.bus.pendingGain = none ∧ (∀ p ∈ up.bus.polls, p.due = false) ∧ (working .idle).bus.inHand.isSome = true :=
  ⟨fun _ => ⟨up_inHand _ _, holding_inHand _ _ _ rfl rfl up_regionsOk⟩, by decide, by decide, by decide, by decide, by
    decide, by decide, by decide +kernel, rfl, rfl, rfl, rfl, by decide +kernel, rfl⟩

/-- A unit in FAULT with nothing waiting. -/
theorem witness_BusTransfer_in_fault :
    let s := { up with bus := { up.bus with state := .fault } }
    (∀ bs, InHand 13 (req 13 bs) (holding s (req 13 bs))) ∧ s.bus.inHand = none ∧ s.bus.state = .fault ∧ s.bus.queue = []
      ∧ s.bus.pendingGain = none ∧ (∀ p ∈ s.bus.polls, p.due = false) :=
  ⟨fun _ => holding_inHand _ _ _ rfl rfl up_regionsOk, rfl, rfl, rfl, rfl, by
    show ∀ p ∈ List.replicate 8 ({} : Poll), p.due = false; decide⟩

/-- A TEMPERATURE entry that comes with period 0, one that goes, and an entry that is neither. -/
theorem witness_PollSetReplacesEntry :
    let come := req 14 [7, 1, 127, 9, 2, 0, 1]
    let s := { up with bus := { up.bus with polls := up.bus.polls.set 3 { entry := { enable := true, role := .temperature } } } }
    (∀ bs, InHand 14 (req 14 bs) (holding up (req 14 bs)) ∧ InHand 14 (req 14 bs) (holding s (req 14 bs)))
      ∧ up.bus.polls.length = 8 ∧ s.bus.polls.length = 8 ∧ pollSetRefused come.args up.bus.polls = false
      ∧ u8 come.args 1 ≠ 0 ∧ u8 come.args 6 = 1 ∧ pollSetRefused (req 14 [3, 1, 0, 0, 4, 1, 0]).args s.bus.polls = false
      ∧ (s.bus.polls.getD 3 {}).entry.enable = true ∧ (s.bus.polls.getD 3 {}).entry.role = .temperature
      ∧ (up.bus.polls.getD 7 {}).entry.enable = false ∧ s.lamp.stale = false :=
  ⟨fun _ => ⟨up_inHand _ _, holding_inHand _ _ _ rfl rfl up_regionsOk⟩, rfl, rfl, by decide +kernel, by decide, by decide, by
    decide +kernel, rfl, rfl, rfl, rfl⟩

/-- A unit in each bus state, with a transfer in hand in ACTIVE. -/
theorem witness_BusResetStartsRecovery (st : BusState) (byReset : Bool) :
    let s := { up with bus := { up.bus with state := st, afterReset := byReset } }
    InHand 15 (req 15 []) (holding s (req 15 [])) ∧ s.bus.state = st ∧ s.bus.afterReset = byReset ∧ s.bus.pendingGain = none
      ∧ InHand 15 (req 15 []) (holding (working .idle) (req 15 [])) ∧ (working .idle).bus.state = .active
      ∧ (working .idle).bus.inHand = some (inHand (transfer 0x3000)) ∧ (transfer 0x3000).slot + 64 ≤ 2 ^ 32
      ∧ (working .idle).bus.pendingGain.isSome = true :=
  ⟨holding_inHand _ _ _ rfl rfl up_regionsOk, rfl, rfl, rfl, holding_inHand _ _ _ rfl rfl up_regionsOk, rfl, rfl, by decide,
    rfl⟩

/-! Capture -/

/-- A frame in store 1. -/
def frame : Frame := { store := 1, seq := 6, gain := 256, levels := [1, 2, 3, 4, 5, 6], autoLevel := 300, picture := true }

/-- A part with that frame in a trigger state. -/
def capturing (trig : TrigState) (f : Frame) : State :=
  { up with
    capture := { trig := trig, plan := some plan, selPtr := some 1, seq := 6, prevTrigger := some (100, 5000)
                 deadline := some 9999, frame := some f } }

theorem witness_CaptureDueTriggersOrDefers :
    let s := capturing .waiting frame
    let full := { deferred with capture := { deferred.capture with trig := .waiting, deferralOpen := false } }
    s.capture.trig = .waiting ∧ s.capture.plan = some plan ∧ Working s ∧ RegionsOk s ∧ s.cfg.stores ≤ s.ring.length
      ∧ selectStore s = some 2 ∧ full.capture.trig = .waiting ∧ RegionsOk full ∧ selectStore full = none
      ∧ full.capture.deferralOpen = false :=
  ⟨rfl, rfl, .inl rfl, up_regionsOk, by decide, by decide +kernel, rfl, up_regionsOk, by decide +kernel, rfl⟩

theorem witness_TriggerEndSamples :
    let s := capturing .exposing frame
    s.capture.trig = .exposing ∧ s.capture.plan = some plan ∧ s.capture.frame = some frame
      ∧ s.capture.prevTrigger = some (100, 5000) ∧ Working s ∧ RegionsOk s := ⟨rfl, rfl, rfl, rfl, .inl rfl, up_regionsOk⟩

/-- The last line of the picture, one pixel longer than its width, with and without burn-in; and data after it. -/
theorem witness_PictureLinesStored (burn : Bool) :
    let s := { capturing .readout frame with cfg := { cfg with burnIn := burn } }
    s.capture.plan = some plan ∧ s.capture.frame = some frame ∧ s.capture.trig = .readout ∧ frame.picture = true
      ∧ frame.lines + 1 = s.cfg.height ∧ Working s ∧ RegionsOk s ∧ frame.store < s.cfg.stores
      ∧ 2 * s.cfg.width ≤ ([1, 2, 3, 4, 5, 6] : List Byte).length ∧ s.cfg.burnIn = burn
      ∧ s.cfg.height ≤ ({ frame with lines := 1 } : Frame).lines :=
  ⟨rfl, rfl, rfl, rfl, rfl, .inl rfl, up_regionsOk, by show 1 < 3; decide, by show 2 * 2 ≤ 6; decide, rfl, by
    show 1 ≤ 1; decide⟩

/-- No frame in IDLE; a frame in EXPOSING; data before the picture in READOUT. -/
theorem witness_PictureLines_outside :
    up.capture.trig = .idle ∧ up.capture.frame = none ∧ (capturing .exposing frame).capture.trig ≠ .readout
      ∧ (capturing .deferred frame).capture.trig ≠ .readout ∧ (capturing .waiting frame).capture.trig ≠ .readout
      ∧ ({ frame with picture := false } : Frame).picture = false := by decide

/-- A frame without its line; and a boost frame whose order is at the head of the queue. -/
theorem witness_AbandonmentVoidsStore (boost : Bool) :
    let p := { plan with boost := boost }
    let s := { capturing .readout frame with
      capture := { (capturing .readout frame).capture with plan := some p, abandons := 2 }
      still := { orders := [{ origin := .snapshot 0x3080, claimed := boost, frameSeq := 6 }] } }
    s.capture.trig = .readout ∧ s.capture.frame = some frame ∧ s.capture.plan = some p ∧ BoostFrameHeld s
      ∧ frame.lines < s.cfg.height ∧ frame.store < s.cfg.stores ∧ s.cfg.stores ≤ s.ring.length ∧ s.part = .running
      ∧ RegionsOk s ∧ frame.picture = true ∧ s.capture.deadline.isSome = true ∧ s.capture.abandons = 2
      ∧ s.capture.los = false ∧ (setPart .halting s).part = .halting ∧ ([1, 2, 3] : List Byte).length / 2 < s.cfg.width
      ∧ Apart (storeHeader s frame.store) (eventList s) ∧ Apart (storeHeader s frame.store) (slotHead 0x3080) := by
  refine ⟨rfl, rfl, rfl, ?_, by show 0 < 1; decide, by show 1 < 3; decide, by show 3 ≤ 16; decide, rfl, up_regionsOk, rfl, rfl, rfl,
    rfl, rfl, by show 1 < 2; decide, apart_of_ge _ _ (by show 0x2000 + 48 * 4 ≤ 0x4000 + 1 * 128; decide),
    apart_of_ge _ _ (by show 0x3080 + 16 ≤ 0x4000 + 1 * 128; decide)⟩
  cases boost <;> unfold BoostFrameHeld <;> decide +kernel

/-- A frame with all its lines; and a boost frame whose order finds the last entry of the still table, and none. -/
theorem witness_FrameCompleteMarksStore (boost : Bool) :
    let f := { frame with lines := 1, meterSum := 400 }
    let p := { plan with boost := boost }
    let s := { capturing .readout f with
      capture := { (capturing .readout f).capture with plan := some p, prevTrigger := some (100, 9000) }
      still := { orders := [{ origin := .mark, claimed := boost, frameSeq := 6 }] } }
    s.capture.trig = .readout ∧ s.capture.frame = some f ∧ s.capture.plan = some p ∧ BoostFrameHeld s
      ∧ f.picture = true ∧ f.lines = s.cfg.height ∧ f.store < s.cfg.stores ∧ s.cfg.stores ≤ s.ring.length
      ∧ f.levels.length = 6 ∧ s.part = .running ∧ RegionsOk s ∧ BusReachable s ∧ BusQuiet s
      ∧ (setPart .halting s).part = .halting
      ∧ s.now < (nextPlan false s).dueAt := by
  refine ⟨rfl, rfl, rfl, ?_, rfl, rfl, by show 1 < 3; decide, by show 3 ≤ 16; decide, rfl, rfl, up_regionsOk,
    up_busReachable, ⟨by show BusState.idle ≠ .fault; decide, .inr rfl⟩, rfl, by
    show 0 < 9100; decide⟩
  cases boost <;> unfold BoostFrameHeld <;> decide +kernel

/-- A boost frame whose order finds an entry that can take it, one too small, and none; the next frame is due at once and
finds no store but the one it frees. -/
def boosting (entry : List Byte) (hold : Bool) : State :=
  { capturing .readout { frame with lines := 1 } with
    capture := { (capturing .readout { frame with lines := 1 }).capture with
      plan := some { plan with boost := true }, prevTrigger := none }
    still := { orders := [{ origin := .mark, claimed := true, frameSeq := 6 }] }
    ring := [{ state := .complete, seq := 4, hold := hold }, { state := .filling, seq := 6 },
             { state := .complete, seq := 5, playPin := hold }]
    mem := storeBytes [] 0x10270 entry }

theorem witness_FrameComplete_boost (hold : Bool) :
    BoostFrameHeld (boosting [] hold) ∧ RegionsOk (boosting [] hold) ∧ BusReachable (boosting [] hold)
      ∧ after (exec (.frameComplete 0) (boosting ([1, 0, 0, 0] ++ le32 0x8000 ++ le32 68) hold)) (fun t =>
          (t.still.copy.map (·.buffer)) == some 0x8000 && decide (0x8000 + 64 ≤ 2 ^ 32)
            && t.capture.trig == if hold then .deferred else .exposing) = true
      ∧ after (exec (.frameComplete 0) (boosting ([1, 0, 0, 0] ++ le32 0x8000 ++ le32 67) hold)) (fun t =>
          t.still.copy == none && t.capture.trig == .exposing) = true := by
  refine ⟨?_, up_regionsOk, up_busReachable, ?_, ?_⟩
  · unfold BoostFrameHeld; cases hold <;> decide
  · cases hold <;> decide +kernel
  · cases hold <;> decide +kernel

/-- A copy into the last entry, for a mark and for a SNAPSHOT, before its one line has been moved and after. -/
theorem witness_StillCopyEndFillsEntry (o : StillOrigin) (lines : Nat) (h : o = .mark ∨ o = .snapshot 0x1000)
    (hl : lines ≤ 1) :
    let c : StillCopy := { origin := o, entry := 7, buffer := 0x8000, store := 2, seq := 9, lines := lines }
    let s := { up with still := { copy := some c } }
    let size := s.cfg.height * (s.cfg.width * 2)
    s.still.copy = some c ∧ s.part = .running ∧ (setPart .halting s).part = .halting ∧ s.capture.trig ≠ .deferred ∧ RegionsOk s ∧ c.store < s.cfg.stores
      ∧ c.entry < 8 ∧ s.cfg.stores ≤ s.ring.length ∧ c.buffer + 64 + size ≤ 2 ^ 32 ∧ s.pending = []
      ∧ (c.lines < s.cfg.height ∨ s.cfg.height ≤ c.lines)
      ∧ Apart (c.buffer + 64, size) (s.areaBase + 0x200 + 16 * c.entry, 16)
      ∧ Apart (c.buffer + 64, size) (storeBase s.cfg c.store + 64, size)
      ∧ (∀ slot, c.origin = .snapshot slot → slot + 64 ≤ 2 ^ 32)
      ∧ Apart (slotHead 0x1000) (c.buffer + 64, size) ∧ Apart (slotHead 0x1000) (s.areaBase + 0x200 + 16 * c.entry, 16) := by
  refine ⟨rfl, rfl, rfl, by show TrigState.idle ≠ .deferred; decide, up_regionsOk, by show 2 < 3; decide, by show 7 < 8; decide,
    by show 3 ≤ 16; decide, by show 0x8000 + 64 + 1 * (2 * 2) ≤ 2 ^ 32; decide, rfl, by
    show lines < 1 ∨ 1 ≤ lines; omega,
    apart_of_le _ _ (by show 0x8000 + 64 + 1 * (2 * 2) ≤ 0x10000 + 0x200 + 16 * 7; decide),
    apart_of_ge _ _ (by show 0x4000 + 2 * 128 + 64 + 1 * (2 * 2) ≤ 0x8000 + 64; decide), ?_,
    apart_of_le _ _ (by show 0x1000 + 16 ≤ 0x8000 + 64; decide),
    apart_of_le _ _ (by show 0x1000 + 16 ≤ 0x10000 + 0x200 + 16 * 7; decide)⟩
  intro slot hs
  change o = .snapshot slot at hs
  rcases h with h | h <;> rw [h] at hs <;> cases hs
  decide

/-! Lamps and exposure -/

theorem witness_StaleBringsCeilingToFloor :
    let s := { up with lamp := { up.lamp with tempFails := 3, tempAge := 100 } }
    Working s ∧ RegionsOk s ∧ s.lamp.stale = false ∧ s.lamp.tempPresent = false ∧ s.lamp.tempFails = 3
      ∧ s.lamp.tempAge = 100 ∧ s.playout.timer.isSome = true ∧ s.lamp.ceiling ≠ s.cfg.floor :=
  ⟨.inl rfl, up_regionsOk, rfl, rfl, rfl, rfl, rfl, by decide⟩

/-- A gain write and a poll in hand. -/
def onBus (o : TxnOwner) (readLen : Nat) (role : PollRole) : State :=
  { up with
    exposure := { up.exposure with planG := 300, gws := .writing, busGain := 300, handedGain := some 300, failures := 2 }
    bus := { up.bus with
      state := .active, inHand := some { owner := o, address := 5, write := [1, 1, 44], readLen := readLen }
      polls := up.bus.polls.set 7 { entry := { enable := true, length := 2, role := role }, slot := { failures := 3 } } } }

theorem witness_FailuresCountedAndReported (o : TxnOwner) (h : o = .gain 300 ∨ o = .poll 7 false) (role : PollRole) :
    let s := onBus o 0 role
    let waits := { s with bus := { s.bus with state := .waitFree, busyTimer := some 50 } }
    s.part = .running ∧ RegionsOk s ∧ BusReachable s ∧ (setPart .faulted s).part = .faulted ∧ (∀ h, o ≠ .host h)
      ∧ waits.bus.state = .waitFree ∧ waits.bus.busyTimer = some 50 ∧ s.bus.retries < s.cfg.retryLimit
      ∧ s.bus.state = .active
      ∧ s.bus.inHand = some { owner := o, address := 5, write := [1, 1, 44], readLen := 0 } ∧ s.bus.queue = []
      ∧ s.exposure.failures = 2 ∧ 7 < s.bus.polls.length ∧ (s.bus.polls.getD 7 {}).slot.failures = 3
      ∧ (s.bus.polls.getD 7 {}).entry.role = role ∧ (o = .gain 300 ∨ o = .poll 7 false) :=
  ⟨rfl, up_regionsOk, busReachable_of _ rfl rfl, rfl, fun _ hh => (by rcases h with h | h <;> rw [h] at hh <;> cases hh),
    rfl, rfl, by show 0 < 2; decide, rfl, rfl, rfl, rfl, by show 7 < 8; decide, rfl, rfl, h⟩

/-- A BUS_RESET that cuts a gain write, and one that cuts a poll. -/
theorem witness_BusReset_gain_and_poll (o : TxnOwner) (role : PollRole) :
    let s := onBus o 0 role
    InHand 15 (req 15 []) (holding s (req 15 [])) ∧ s.bus.state = .active
      ∧ s.bus.inHand = some { owner := o, address := 5, write := [1, 1, 44], readLen := 0 } ∧ s.exposure.gws = .writing
      ∧ (s.exposure.behind = true ↔ s.bus.pendingGain.isSome = true) ∧ s.bus.pendingGain = none
      ∧ s.bus.polls[7]? = some { entry := { enable := true, length := 2, role := role }, slot := { failures := 3 } } :=
  ⟨holding_inHand _ _ _ rfl rfl up_regionsOk, rfl, rfl, rfl, ⟨(nomatch ·), (nomatch ·)⟩, rfl, rfl⟩

/-- The exposure of section 6.7, at products on both sides of each case. -/
theorem witness_AllocationByCases :
    0 < loop.tPref ∧ 0 < loop.tMax ∧ 0 < loop.tMin ∧ loop.tMin ≤ loop.tPref ∧ loop.tPref ≤ loop.tMax ∧ 256 ≤ loop.gMax
      ∧ (allocate loop 0 1 = ⟨0, 60000, 2048⟩) ∧ (allocate loop 765 7650000 = ⟨765, 10000, 256⟩)
      ∧ (allocate loop 765 7650001 = ⟨765, 10001, 256⟩) ∧ (allocate loop 765 630000 = ⟨64, 9843, 256⟩)
      ∧ (allocate loop 765 45900001 = ⟨765, 60000, 257⟩) := by decide +kernel

/-- A report at the edge of the dead band and one beyond it, a run in RUNNING and AUTO, and each gain write state. -/
theorem witness_Allocation_runs (g : GainState) :
    let report : Report :=
      { seq := 6, t := 4000, gain := 256, level := 300, mean := 104, boost := false, los := false }
    let s := { up with exposure := { up.exposure with gws := g } }
    s.part = .running ∧ s.exposure.mode = .auto ∧ report.boost = false ∧ report.los = false
      ∧ |((max 1 report.mean : Nat) : Int) - s.exposure.target| ≤ s.exposure.tolerance
      ∧ ¬ |((max 1 105 : Nat) : Int) - s.exposure.target| ≤ s.exposure.tolerance
      ∧ s.exposure.gws = g ∧ s.exposure.planG = s.exposure.gainInEffect ∧ s.exposure.retry = false :=
  ⟨rfl, rfl, rfl, rfl, by show |(104 : Int) - 100| ≤ 4; decide, by show ¬ |(105 : Int) - 100| ≤ 4; decide, rfl, rfl, rfl⟩

/-! The link and the chainage -/

/-- An exact half of a mm, above and below the origin. -/
theorem witness_CandidateRoundsHalfAway :
    rawCandidate { scale := 32768 } 1 = 1 ∧ rawCandidate { scale := 32768 } (-1) = -1 := by decide +kernel

theorem witness_FramedMessageReceived :
    ({} : Rx).state = .hunt ∧ (List.replicate 32 (0xC5 : Byte)).length ≤ 32 ∧ ([] : List Byte).length ≤ 32 := by decide

/-- A message of the unit's own address arrives, whatever its kind and payload, where the filter accepts it. -/
theorem arrives (kind : Byte) (payload : List Byte) (s : State) (hl : linkActive s = true) (hr : s.link.rx.state = .hunt)
    (hn : payload.length ≤ 32) (hf : filterAccepts s.cfg ⟨0x12, kind, payload⟩ = true) :
    Arrives 0x12 kind payload (wireBytes 0x12 kind payload) s := ⟨hl, hr, hn, rfl, hf⟩

/-- A REEL to the unit's own address passes the filter. -/
theorem filterAccepts_reel (a b c d e : Byte) : filterAccepts cfg ⟨0x12, 1, [a, b, c, d, e]⟩ = true := by
  simp [filterAccepts, kindAndLength, cfg]

/-- A running chainage unit whose next mark and target lie ahead. -/
def driving (rejects : Nat) : State :=
  tracking { run := .running, originValid := true, x := 1000, baseX := 1000, stepLimit := 50, markInterval := 10
             nextMark := some 1010, held := true, rejects := rejects }

/-- 50 counts lie just within the step limit, 51 just beyond; with two rejections they are a resync. -/
theorem witness_ReelAcceptedOrRejected (n : Byte) (rejects : Nat) :
    let s := driving rejects
    Arrives 0x12 1 [0, 0, 0, n, 0] (wireBytes 0x12 1 [0, 0, 0, n, 0]) s ∧ Working s ∧ RegionsOk s
      ∧ bitAt ([0, 0, 0, n, 0] : List Byte) 4 0 = false ∧ s.chainage.run = .running ∧ s.chainage.originValid = true
      ∧ s.chainage.rejects = rejects ∧ s.chainage.held = true ∧ s.chainage.nextMark = some 1010
      ∧ withinStep (driving 2).chainage 1050 = true ∧ withinStep (driving 2).chainage 1051 = false :=
  ⟨arrives _ _ _ rfl rfl (by show 5 ≤ 32; decide) (filterAccepts_reel 0 0 0 n 0), .inl rfl, up_regionsOk, by
    show ((0 : Byte).getLsbD 0) = false; decide, rfl, rfl, rfl, rfl, rfl, by decide, by decide⟩

/-- A next mark or target at the new chainage itself and one a mm beyond it, in both travel directions; the driving
chainage travels down as well as up. -/
theorem witness_ReelAccepted_marks :
    let down := { (driving 0).chainage with travel := .decreasing, forward := false, nextMark := some 990 }
    Arrives 0x12 1 [0, 0, 0, 10, 0] (wireBytes 0x12 1 [0, 0, 0, 10, 0]) { driving 0 with chainage := down }
      ∧ (driving 0).chainage.travel = .increasing ∧ (driving 0).chainage.markInterval = 10
      ∧ rawCandidate (driving 0).chainage 10 = 1010 ∧ rawCandidate down 10 = 990
      ∧ markCrossed { down with x := 990 } 990 = true ∧ markCrossed { down with x := 991 } 990 = false
      ∧ targetReached { x := 1010 } 1010 = true ∧ targetReached { x := 1009 } 1010 = false :=
  ⟨arrives _ _ _ rfl rfl (by show 5 ≤ 32; decide) (filterAccepts_reel 0 0 0 10 0), rfl, rfl, by decide +kernel, by
    decide +kernel, by decide, by decide, by decide, by decide⟩

theorem witness_ReelOutsideTracking (fault : Byte) (c : Chainage) :
    let s := tracking c
    Arrives 0x12 1 [1, 2, 3, 4, fault] (wireBytes 0x12 1 [1, 2, 3, 4, fault]) s ∧ Working s ∧ RegionsOk s
      ∧ bitAt [1, 2, 3, 4, 1] 4 0 = true ∧ bitAt [1, 2, 3, 4, 0] 4 0 = false ∧ ({} : Chainage).run = .stopped
      ∧ ({} : Chainage).originValid = false :=
  ⟨arrives _ _ _ rfl rfl (by show 5 ≤ 32; decide) (filterAccepts_reel 1 2 3 4 fault), .inl rfl, up_regionsOk, by decide, by
    decide, rfl, rfl⟩

/-- Every kind that has an owner, with the least and the greatest length it allows. -/
theorem witness_AcceptedMessagesReachOwners :
    Working up ∧ RegionsOk up ∧ linkActive up = true ∧ up.link.rx.state = .hunt
      ∧ (∀ m ∈ ([⟨0x12, 0x02, [0xFF, 0xFF]⟩, ⟨0xFF, 0x02, [0, 0]⟩, ⟨0x12, 0x03, [1]⟩, ⟨0x12, 0x03, List.replicate 32 1⟩,
            ⟨0x12, 0x04, []⟩, ⟨0x12, 0x20, []⟩, ⟨0x12, 0x7F, List.replicate 32 1⟩, ⟨0x12, 0xF0, []⟩, ⟨0x12, 0xF1, []⟩] :
            List LinkMsg), filterAccepts up.cfg m = true ∧ m.payload.length ≤ 32) :=
  ⟨.inl rfl, up_regionsOk, rfl, rfl, by decide +kernel⟩

/-- The link hears messages in FAULTED too; the chainage of a REEL there is that of RUNNING. -/
theorem witness_messages_in_faulted (kind : Byte) (payload : List Byte) (s : State) (hs : s.link.rx.state = .hunt)
    (hc : s.cfgTaken = true) (hn : payload.length ≤ 32) (hf : filterAccepts s.cfg ⟨0x12, kind, payload⟩ = true) :
    Arrives 0x12 kind payload (wireBytes 0x12 kind payload) { s with part := .faulted } :=
  arrives _ _ _ hc hs hn hf

theorem witness_ReceiverDropsWithoutTrace (x : RxState) :
    let s := { up with link := { up.link with rx := { state := x, crc := 1 } } }
    linkActive State.reset = false ∧ linkActive s = true ∧ s.link.rx.state = x ∧ 32 < (33 : Byte).toNat
      ∧ s.link.rx.crcHigh ++ (0 : Byte) ≠ s.link.rx.crc
      ∧ filterAccepts s.cfg ⟨0x13, 0x04, []⟩ = false ∧ filterAccepts s.cfg ⟨0x12, 0x00, []⟩ = false :=
  ⟨rfl, rfl, rfl, by decide, by show (0 : Byte) ++ (0 : Byte) ≠ (1 : BitVec 16); decide, by
    show filterAccepts cfg ⟨0x13, 0x04, []⟩ = false; decide, by show filterAccepts cfg ⟨0x12, 0x00, []⟩ = false; decide⟩

theorem witness_LinkLostHoldsChainage :
    up.link.silence = some 500000 ∧ up.link.state ≠ .lost ∧ linkActive up = true ∧ RegionsOk up ∧ Working up
      ∧ linkActive (setPart .faulted up) = true ∧ up.chainage.held = false :=
  ⟨rfl, by decide, rfl, up_regionsOk, .inl rfl, rfl, rfl⟩

/-- A link at its cadence with a HEAD_STATUS that waits between host messages, and one that sends. -/
theorem witness_UplinkBuildsAndSends :
    let host : UplinkMsg := { host := some 0x1000, kind := 0xA0, payload := [1] }
    let status : UplinkMsg := { host := none, kind := 0x81, payload := [2] }
    let s := { up with link := { up.link with cadence := 1, queue := [host, status, host] } }
    let t := { up with link := { up.link with sending := some { msg := host, wire := [] } } }
    linkActive s = true ∧ s.cfg.cadenceK ≠ 0 ∧ s.link.cadence + 1 = s.cfg.cadenceK ∧ s.link.queue = [host] ++ status :: [host]
      ∧ status.host = none ∧ (∀ q ∈ [host, host], q.host.isSome = true) ∧ s.part ≠ .halting ∧ s.link.sending = none
      ∧ t.link.sending = some { msg := host, wire := [] } ∧ host.host = some 0x1000 ∧ Working t ∧ RegionsOk t
      ∧ (setPart .halting t).part = .halting ∧ 0x1000 + 64 ≤ 2 ^ 32 :=
  ⟨rfl, by decide, rfl, rfl, rfl, by decide, by decide, rfl, rfl, rfl, .inl rfl, up_regionsOk, rfl, by decide⟩

/-! The head bus -/

/-- A poll at its last countdown; and a recovery attempt in each part state, with nothing else waiting and with a
transfer that waits. -/
theorem witness_BusMonitorPollsAndRecovery (part : PartState)
    (h : part = .running ∨ part = .halting ∨ part = .halted ∨ part = .faulted) :
    let p : Poll := { entry := { enable := true, address := 5, register := 6, length := 2, period := 9 }, countdown := 1 }
    let s := { up with bus := { up.bus with polls := up.bus.polls.set 7 p } }
    let r := { setPart part up with bus := { up.bus with state := .recovery, afterReset := true, resets := [0x1000] } }
    let q := { r with bus := { r.bus with queue := [transfer 0x3000] } }
    s.part.lit = true ∧ s.bus.polls[7]? = some p ∧ p.entry.enable = true ∧ p.countdown = 1 ∧ s.part = .running
      ∧ s.bus.inHand = none ∧ s.bus.state = .idle ∧ s.bus.pendingGain = none ∧ (∀ q ∈ s.bus.polls, q.due = false)
      ∧ (setPart .halting s).part = .halting ∧ BusState.waitFree ≠ .idle
      ∧ (Working r ∨ r.part = .faulted) ∧ r.bus.state = .recovery ∧ r.bus.resets = [0x1000] ∧ r.bus.inHand = none
      ∧ r.bus.pendingGain = none ∧ r.bus.queue = [] ∧ RegionsOk r ∧ (∀ x ∈ r.bus.polls, x.due = false)
      ∧ BusReachable s ∧ BusReachable r ∧ BusReachable q
      ∧ recoveryOf [true] false true = some .succeeded ∧ recoveryOf [true] true true = some (.failed false false) := by
  refine ⟨rfl, rfl, rfl, rfl, rfl, rfl, rfl, rfl, by decide +kernel, rfl, by decide, ?_, rfl, rfl, rfl, rfl, rfl, up_regionsOk,
    by show ∀ x ∈ List.replicate 8 ({} : Poll), x.due = false; decide, busReachable_of _ rfl rfl, busReachable_of _ rfl rfl,
    ⟨rfl, by show 1 ≤ 4; decide, by
      show ∀ x ∈ [transfer 0x3000], x.slot + 64 ≤ 2 ^ 32 ∧ (x.buffered = true → x.buffer + x.writeLen ≤ 2 ^ 32); decide⟩,
    by decide, by decide⟩
  rcases h with h | h | h | h
  · exact .inl (.inl h)
  · exact .inl (.inr (.inl h))
  · exact .inl (.inr (.inr h))
  · exact .inr h

theorem witness_HostTransferEnds (st : BusState) (retries : Nat) :
    let h := transfer 0x1000
    let s := { up with bus := { up.bus with
      state := st, inHand := some (inHand h), queue := [h], busyTimer := some 100, retries := retries } }
    s.part = .running ∧ (setPart .halting s).part = .halting ∧ (setPart .faulted s).part = .faulted ∧ BusReachable s
      ∧ RegionsOk s ∧ s.bus.inHand = some (inHand h) ∧ (inHand h).owner = .host h
      ∧ (inHand h).readLen = h.readLen ∧ s.bus.queue = [h] ∧ h.slot + 64 ≤ 2 ^ 32 ∧ s.bus.pendingGain = none
      ∧ (∀ q ∈ s.bus.polls, q.due = false) ∧ s.bus.state = st ∧ s.bus.busyTimer = some 100 ∧ s.cfg.retryLimit = 2
      ∧ s.bus.retries = retries ∧ 1 < (inHand h).write.length ∧ h.dest + h.readLen ≤ 2 ^ 32
      ∧ ([9] : List Byte).length = h.readLen :=
  ⟨rfl, rfl, rfl, ⟨rfl, by show 1 ≤ 4; decide, by
      show ∀ x ∈ [transfer 0x1000], x.slot + 64 ≤ 2 ^ 32 ∧ (x.buffered = true → x.buffer + x.writeLen ≤ 2 ^ 32); decide⟩,
    up_regionsOk, rfl, rfl, rfl, rfl, by decide, rfl, by
    show ∀ q ∈ List.replicate 8 ({} : Poll), q.due = false; decide, rfl, rfl, rfl, rfl, by decide, by decide, rfl⟩

theorem witness_GainAndPollSuccess (o : TxnOwner) (readLen : Nat) (role : PollRole) :
    let s := onBus o readLen role
    s.part = .running ∧ RegionsOk s ∧ BusReachable s ∧ (setPart .halting s).part = .halting ∧ s.bus.state = .active
      ∧ s.bus.inHand = some { owner := o, address := 5, write := [1, 1, 44], readLen := readLen } ∧ s.bus.queue = []
      ∧ s.bus.pendingGain = none ∧ (∀ q ∈ s.bus.polls, q.due = false) ∧ s.exposure.behind = false ∧ s.exposure.planG = 300
      ∧ s.bus.polls[7]? = some { entry := { enable := true, length := 2, role := role }, slot := { failures := 3 } } := by
  refine ⟨rfl, up_regionsOk, busReachable_of _ rfl rfl, rfl, rfl, rfl, rfl, rfl, ?_, rfl, rfl, rfl⟩
  cases role <;> (show ∀ q ∈ (List.replicate 8 ({} : Poll)).set 7 _, q.due = false) <;> decide

/-- A gain write that ends while the plan has another gain. -/
theorem witness_GainAndPoll_plan_moved :
    let s := onBus (.gain 300) 0 .general
    ({ s with exposure := { s.exposure with planG := 301 } } : State).exposure.planG ≠ 300
      ∧ s.exposure.behind = false := ⟨by decide, rfl⟩

/-- Readings at the cut threshold and just below, and at the temperature at which the latch releases. -/
theorem witness_GainAndPoll_readings :
    Int.fdiv ((0x64 : Byte) ++ (0 : Byte)).toInt 128 = 200 ∧ Int.fdiv ((0x63 : Byte) ++ (0x80 : Byte)).toInt 128 = 199
      ∧ Int.fdiv ((0x5F : Byte) ++ (0 : Byte)).toInt 128 = up.cfg.tCut - up.cfg.hysteresis ∧ up.cfg.tCut = 200 := by
  decide +kernel

/-! Invariants -/

/-- A step from a state that meets every invariant. -/
theorem witness_StepKeeps :
    MemoryCanonical up ∧ LoadingMatchesPart up ∧ BoostFrameHeld up ∧ HoldFollowsPart up ∧ ChainageInRange up
      ∧ LampWithinLimits up ∧ QueuesBounded up ∧ step up = .next up :=
  ⟨rfl, rfl, by unfold BoostFrameHeld; decide, rfl, by unfold ChainageInRange; decide, by unfold LampWithinLimits; decide +kernel, by
    unfold QueuesBounded; refine ⟨?_, ?_, ?_, ?_, ?_, trivial⟩ <;> decide, rfl⟩

theorem witness_OffAndFaultedAreSilent :
    LoadingMatchesPart State.reset ∧ step State.reset = .next State.reset ∧ State.reset.part = .off
      ∧ LoadingMatchesPart (setPart .faulted up) ∧ (setPart .faulted up).part = .faulted := ⟨rfl, rfl, rfl, rfl, rfl⟩

end Sys2Proof.Tests
end

namespace Sys2Proof.Proofs

open Sys2Proof.Machine Sys2Proof.Safety Sys2Proof.Laws

/-! ## What every operation of the part keeps

`Keeps s t` says what an operation that starts in `s` and ends in `t` may have done to the things that the step
invariants look at. It is a preorder, and every operation below is proved once to lie in it: each lemma `op_keeps`
carries `Keeps s t` over to `Keeps s (op t)`, so that a proof about a composed operation is the composition of the
lemmas. The few operations that do more than `Keeps` allows (a START, a load, a HALT, the fixing of a plan, the end of
a claimed order, the joining of a queue) are treated one by one after them. -/

/-- The changes of the part state within an operation: an entry to FAULTED, and the end of a HALT. -/
inductive PartMoves : PartState → PartState → Prop
  | stay (p : PartState) : PartMoves p p
  | fault {p : PartState} (h : p ≠ .off) : PartMoves p .faulted
  | settle : PartMoves .halting .halted

theorem PartMoves.trans {p q r : PartState} (h : PartMoves p q) (h' : PartMoves q r) : PartMoves p r := by
  cases h with
  | stay => exact h'
  | fault hp =>
    cases h' with
    | stay => exact .fault hp
    | fault => exact .fault hp
  | settle =>
    cases h' with
    | stay => exact .settle
    | fault => exact .fault (by decide)

theorem PartMoves.ne_running {p q : PartState} (h : PartMoves p q) (hp : p ≠ .running) : q ≠ .running := by
  cases h with
  | stay => exact hp
  | fault => decide
  | settle => decide

/-- No boost frame is planned or in progress. -/
def NoBoost (s : State) : Prop := ∀ p ∈ s.capture.plan, p.boost = false

/-- The head order is claimed. -/
def HeadClaimed (s : State) : Prop := ∃ o ∈ s.still.orders.head?, o.claimed = true

/-- No order is left, outside RUNNING. -/
def OrdersOver (s : State) : Prop := s.still.orders = [] ∧ s.part ≠ .running

theorem NoBoost.held {s : State} (h : NoBoost s) : BoostFrameHeld s := fun p hp hb => by
  rw [h p hp] at hb; cases hb

/-- What every operation keeps but a START, the taking of a configuration and a reset: canonical memory, the load under
way, the bounds of the queues, the configuration, and the silence of OFF and FAULTED. -/
structure Moves (s t : State) : Prop where
  wf : Memory.wf s.mem = true → Memory.wf t.mem = true
  loading : LoadingMatchesPart s → LoadingMatchesPart t
  bounded : QueuesBounded s → QueuesBounded t
  cfg : t.cfg = s.cfg
  silent : LoadingMatchesPart s → s.part = .off ∨ s.part = .faulted →
    t.part = s.part ∧ t.mem = s.mem ∧ t.list.evIndex = s.list.evIndex ∧ t.list.evLap = s.list.evLap

/-- `Moves`, where besides a boost frame keeps its order: what a whole command does. -/
structure Steps (s t : State) : Prop extends Moves s t where
  boost : BoostFrameHeld s → BoostFrameHeld t

/-- `Moves`, where besides no plan is fixed, a claimed order stays at the head of the queue and none joins it outside
RUNNING. -/
structure Keeps (s t : State) : Prop extends Moves s t where
  part : PartMoves s.part t.part
  plan : t.capture.plan = s.capture.plan ∨ t.capture.plan = none
  fault : s.part ≠ .faulted → t.part = .faulted → t.capture.plan = none
  claimed : HeadClaimed s → HeadClaimed t
  ended : OrdersOver s → OrdersOver t

theorem Moves.refl (s : State) : Moves s s := ⟨id, id, id, rfl, fun _ _ => ⟨rfl, rfl, rfl, rfl⟩⟩

theorem Moves.trans {s t u : State} (h : Moves s t) (h' : Moves t u) : Moves s u where
  wf hw := h'.wf (h.wf hw)
  loading hl := h'.loading (h.loading hl)
  bounded hb := h'.bounded (h.bounded hb)
  cfg := h'.cfg.trans h.cfg
  silent hl hs := by
    obtain ⟨hp, hm, hi, hv⟩ := h.silent hl hs
    obtain ⟨hp', hm', hi', hv'⟩ := h'.silent (h.loading hl) (hp ▸ hs)
    exact ⟨hp'.trans hp, hm'.trans hm, hi'.trans hi, hv'.trans hv⟩

theorem Steps.trans {s t u : State} (h : Steps s t) (h' : Steps t u) : Steps s u where
  toMoves := h.toMoves.trans h'.toMoves
  boost hs := h'.boost (h.boost hs)

theorem Keeps.trans {s t u : State} (h : Keeps s t) (h' : Keeps t u) : Keeps s u where
  toMoves := h.toMoves.trans h'.toMoves
  part := h.part.trans h'.part
  plan := by
    obtain hp | hp := h'.plan
    · rw [hp]; exact h.plan
    · exact .inr hp
  fault hs hu := by
    by_cases ht : t.part = .faulted
    · obtain hp | hp := h'.plan
      · rw [hp, h.fault hs ht]
      · exact hp
    · exact h'.fault ht hu
  claimed hs := h'.claimed (h.claimed hs)
  ended hs := h'.ended (h.ended hs)

/-- A boost frame that is planned or in progress keeps its order. -/
theorem Keeps.boostFrameHeld {s t : State} (h : Keeps s t) (hs : BoostFrameHeld s) : BoostFrameHeld t := by
  intro p hp hb
  obtain hq | hq := h.plan
  · exact (hs p (hq ▸ hp) hb).imp h.claimed h.ended
  · rw [hq] at hp; cases hp

theorem Keeps.noBoost {s t : State} (h : Keeps s t) (hs : NoBoost s) : NoBoost t := by
  intro p hp
  obtain hq | hq := h.plan
  · exact hs p (hq ▸ hp)
  · rw [hq] at hp; cases hp

theorem Keeps.toSteps {s t : State} (h : Keeps s t) : Steps s t := ⟨h.toMoves, h.boostFrameHeld⟩

/-- The bounds stay where nothing joins a queue and no request is taken into hand. -/
theorem bounded_of_le {s t : State} (handed : t.list.handed = s.list.handed ∨ t.list.handed = none := by exact .inl rfl)
    (polls : t.bus.polls.length = s.bus.polls.length := by rfl)
    (queue : t.bus.queue.length ≤ s.bus.queue.length := by exact le_rfl)
    (orders : s.still.orders.length ≤ 2 → t.still.orders.length ≤ 2 := by exact id)
    (places : hostPlaces t.link ≤ hostPlaces s.link := by exact le_rfl)
    (fifo : s.overlay.fifo.length ≤ 128 → t.overlay.fifo.length ≤ 128 := by exact id) (h : QueuesBounded s) :
    QueuesBounded t := by
  obtain ⟨hp, hq, ho, hl, hf, hr⟩ := h
  refine ⟨polls.trans hp, queue.trans hq, orders ho, places.trans hl, fifo hf, ?_⟩
  unfold HandedHasRoom
  split
  · trivial
  · rename_i r ht
    have hs : s.list.handed = some r := by
      obtain h | h := handed
      · rw [← h, ht]
      · rw [ht] at h; cases h
    simp only [HandedHasRoom, hs, unitRoom] at hr ⊢
    split
    · rename_i hk; simp only [hk, if_true, decide_eq_true_eq] at hr ⊢; omega
    · rename_i hk
      simp only [hk, if_false] at hr
      split
      · rename_i hk'; simp only [hk', if_true, decide_eq_true_eq] at hr ⊢; omega
      · rfl

/-- A change that leaves memory, the part state, the load, the configuration and the event cursor alone. -/
theorem Moves.change {s t u : State} (h : Moves s t) (bounded : QueuesBounded t → QueuesBounded u := by exact bounded_of_le)
    (mem : u.mem = t.mem := by rfl) (part : u.part = t.part := by rfl) (loading : u.loading = t.loading := by rfl)
    (cfg : u.cfg = t.cfg := by rfl) (evIndex : u.list.evIndex = t.list.evIndex := by rfl)
    (evLap : u.list.evLap = t.list.evLap := by rfl) : Moves s u :=
  h.trans {
    wf := fun hw => by rwa [mem]
    loading := fun h => by rwa [LoadingMatchesPart, loading, part]
    bounded := bounded
    cfg := cfg
    silent := fun _ _ => ⟨part, mem, evIndex, evLap⟩ }

/-- Such a change, where besides no plan is fixed and the still orders keep their claim. -/
theorem Keeps.change {s t u : State} (h : Keeps s t) (bounded : QueuesBounded t → QueuesBounded u := by exact bounded_of_le)
    (plan : u.capture.plan = t.capture.plan ∨ u.capture.plan = none := by exact .inl rfl)
    (claimed : HeadClaimed t → HeadClaimed u := by exact id) (ended : OrdersOver t → OrdersOver u := by exact id)
    (mem : u.mem = t.mem := by rfl) (part : u.part = t.part := by rfl) (loading : u.loading = t.loading := by rfl)
    (cfg : u.cfg = t.cfg := by rfl) (evIndex : u.list.evIndex = t.list.evIndex := by rfl)
    (evLap : u.list.evLap = t.list.evLap := by rfl) : Keeps s u :=
  h.trans {
    toMoves := (Moves.refl t).change bounded mem part loading cfg evIndex evLap
    part := by rw [part]; exact .stay _
    plan := plan
    fault := fun hp hf => absurd (part ▸ hf) hp
    claimed := claimed
    ended := ended }

/-- All that `Keeps` looks at. -/
def view (s : State) :=
  (s.mem, s.part, s.loading, s.cfg, s.list.evIndex, s.list.evLap, s.list.handed, s.capture.plan, s.still.orders,
    s.bus.polls.length, s.bus.queue.length, hostPlaces s.link, s.overlay.fifo.length)

/-- A change of fields that `Keeps` does not look at. -/
theorem Keeps.of_view {s t u : State} (h : Keeps s t) (hv : view u = view t) : Keeps s u := by
  simp only [view, Prod.mk.injEq] at hv
  obtain ⟨hm, hp, hl, hc, hi, hla, hh, hpl, ho, hpo, hq, hpc, hf⟩ := hv
  refine h.change ?_ (.inl hpl) (fun h => ?_) (fun h => ?_) hm hp hl hc hi hla
  · exact bounded_of_le (.inl hh) hpo hq.le (fun h => by rwa [ho]) hpc.le (fun h => by rwa [hf])
  · rwa [HeadClaimed, ho]
  · rwa [OrdersOver, ho, hp]

theorem Keeps.refl (s : State) : Keeps s s where
  toMoves := .refl s
  part := .stay _
  plan := .inl rfl
  fault h h' := absurd h' h
  claimed := id
  ended := id

variable {s t : State}

theorem onward_keeps_of_ne {k : State → State} (h : Keeps s t) (hk : t.part ≠ .faulted → Keeps s (k t)) :
    Keeps s (onward t k) := by
  unfold onward
  split
  · exact h
  · rename_i hp; exact hk hp

theorem onward_keeps {k : State → State} (h : Keeps s t) (hk : Keeps s t → Keeps s (k t)) :
    Keeps s (onward t k) := onward_keeps_of_ne h fun _ => hk h

theorem ite_keeps {c : Prop} [Decidable c] {u : State} (ht : Keeps s t) (hu : Keeps s u) :
    Keeps s (if c then t else u) := by
  split
  · exact ht
  · exact hu

/-! ### Entry to FAULTED -/

theorem handGain_view (s : State) : view (handGain s) = view s := by
  simp only [handGain]
  split
  · rfl
  · split <;> repeat' split
    all_goals rfl

theorem gainWriteEnd_view (v : Nat) (o : BusOutcome) (s : State) : view (gainWriteEnd v o s).1 = view s := by
  simp only [gainWriteEnd]
  split
  · split
    · exact handGain_view _
    · rfl
  · rfl

theorem pollEnd_view (j : Nat) (r : Bool) (o : BusOutcome) (bs : List Byte) (s : State) :
    view (pollEnd j r o bs s).1 = view s := by
  unfold pollEnd
  split
  · rfl
  · split
    · simp only [pollSucceeded]
      split <;> simp [view, updateAt]
    · simp only [pollFailed]
      split <;> simp [view, updateAt]

/-- Host messages that leave the queue free their places. -/
theorem hostPlaces_filter_isNone (l : Link) (st : Option Nat) :
    hostPlaces { l with queue := l.queue.filter fun m => m.host.isNone, silence := st } = 0 := by
  simp only [hostPlaces, List.filter_filter, List.length_eq_zero_iff, List.filter_eq_nil_iff]
  intro m _
  cases m.host <;> simp

theorem faultBlocks_keeps (hp : s.part ≠ .off) (hp' : s.part ≠ .faulted) : Keeps s (faultBlocks s) where
  wf := id
  loading _ := rfl
  bounded := bounded_of_le (handed := .inr rfl) (places := (hostPlaces_filter_isNone s.link _).le.trans (Nat.zero_le _))
  cfg := rfl
  silent _ h := absurd h (by simp [hp, hp'])
  part := .fault hp
  plan := .inr rfl
  fault _ _ := rfl
  claimed := id
  ended h := ⟨h.1, nofun⟩

/-- The oldest transfer leaves the queue. -/
theorem queueTail_keeps (h : Keeps s t) {b : Bus} (hp : b.polls = t.bus.polls) (hq : b.queue = t.bus.queue.tail) :
    Keeps s { t with bus := b } :=
  h.change (bounded_of_le (polls := congrArg List.length hp) (queue := by simp [hq]))

theorem faultBus_keeps (h : Keeps s t) : Keeps s (faultBus t) := by
  unfold faultBus
  split
  · split
    · exact h.of_view rfl
    · split
      · exact h.of_view (gainWriteEnd_view _ _ _)
      · exact h.of_view (pollEnd_view _ _ _ _ _)
      · exact queueTail_keeps h rfl rfl
  · exact h

theorem enterFaulted_keeps (h : Keeps s t) : Keeps s (enterFaulted t) := by
  unfold enterFaulted
  split
  · exact h
  · rename_i hp
    rw [not_or] at hp
    exact faultBus_keeps (h.trans (faultBlocks_keeps hp.1 hp.2))

/-! ### The port, events and completions -/

/-- Bytes written by a part that may use the port. -/
theorem mem_keeps {m : List Host.Cell} (h : Keeps s t) (ho : portOpen t = true)
    (hm : Memory.wf t.mem = true → Memory.wf m = true) : Keeps s { t with mem := m } :=
  h.trans {
    wf := hm, loading := id, bounded := bounded_of_le, cfg := rfl
    silent := fun _ hp => by obtain hp | hp := hp <;> simp [portOpen, hp] at ho
    part := .stay _, plan := .inl rfl, fault := fun h h' => absurd h' h, claimed := id, ended := id }

theorem portWrite_keeps {a : Nat} {bs : List Byte} (h : Keeps s t) : Keeps s (portWrite a bs t) := by
  cases ho : portOpen t with
  | false => rwa [portWrite_closed ho]
  | true =>
    obtain ⟨m, hw | hw, hm⟩ := portWrite_cases a bs t
    · rw [hw]; exact mem_keeps h ho hm
    · rw [hw]; exact enterFaulted_keeps (mem_keeps h ho hm)

/-- The event write cursor moves, where the port is open. -/
theorem advanceEventCursor_keeps (h : Keeps s t) (ho : portOpen t = true) : Keeps s (advanceEventCursor t) := by
  refine h.trans ?_
  unfold advanceEventCursor
  split
  all_goals exact {
    wf := id, loading := id, bounded := bounded_of_le, cfg := rfl
    silent := fun _ hp => by obtain hp | hp := hp <;> simp [portOpen, hp] at ho
    part := .stay _, plan := .inl rfl, fault := fun h h' => absurd h' h, claimed := id, ended := id }

/-- A write leaves the port open, or meets an error response. -/
theorem portWrite_open {a : Nat} {bs : List Byte} (ho : portOpen s = true) :
    (portWrite a bs s).part = .faulted ∨ portOpen (portWrite a bs s) = true := by
  obtain ⟨m, hw | hw, -⟩ := portWrite_cases a bs s
  · rw [hw]; exact .inr ho
  · rw [hw, enterFaulted_part]
    split
    · rename_i hp; exact absurd (show s.part = .off from hp) (by rintro hp; simp [portOpen, hp] at ho)
    · exact .inl rfl

theorem writeEvent_keeps {e : Event} (h : Keeps s t) (ho : portOpen t = true) : Keeps s (writeEvent e t) := by
  unfold writeEvent
  refine onward_keeps_of_ne (portWrite_keeps h) fun hp => onward_keeps_of_ne (portWrite_keeps (portWrite_keeps h)) fun hp' => ?_
  have ho' := (portWrite_open (portWrite_open ho |>.resolve_left hp)).resolve_left hp'
  exact (advanceEventCursor_keeps (portWrite_keeps (portWrite_keeps h)) ho').of_view rfl

theorem emit_keeps {e : Event} (h : Keeps s t) : Keeps s (emit e t) := by
  unfold emit
  split
  · exact h
  · exact h.of_view rfl
  · exact h.of_view rfl
  all_goals
    rename_i hp
    split
    · exact enterFaulted_keeps h
    · exact ite_keeps (writeEvent_keeps h (by simp [portOpen, hp])) (h.of_view rfl)

theorem emitAll_keeps : ∀ {es : List Event} {t : State}, Keeps s t → Keeps s (emitAll es t)
  | [], _, h => h
  | _ :: es, _, h => emitAll_keeps (es := es) (emit_keeps h)

theorem lampDo_keeps {r : Lamp × List Event} (h : Keeps s t) : Keeps s (lampDo r t) := emitAll_keeps (h.of_view rfl)

theorem lampEnterState_keeps (h : Keeps s t) : Keeps s (lampEnterState t) := lampDo_keeps h

theorem complete_keeps {slot code w0 w1 : Nat} (h : Keeps s t) : Keeps s (complete slot code w0 w1 t) :=
  ite_keeps h <| onward_keeps (portWrite_keeps h) fun h => onward_keeps (portWrite_keeps h) fun h =>
    onward_keeps (portWrite_keeps h) fun h => h.of_view rfl

/-! ### The end of a HALT -/

theorem enterHalted_keeps (h : Keeps s t) (hp : t.part = .halting) : Keeps s (enterHalted t) :=
  lampEnterState_keeps (h.trans {
    wf := id
    loading := fun hl => by rw [LoadingMatchesPart, hp] at hl; exact hl
    bounded := bounded_of_le
    cfg := rfl
    silent := fun _ h => by rw [hp] at h; simp at h
    part := hp ▸ .settle
    plan := .inl rfl
    fault := fun _ h => nomatch h
    claimed := id
    ended := fun h => ⟨h.1, nofun⟩ })

theorem settleHalt_keeps (h : Keeps s t) : Keeps s (settleHalt t) := by
  unfold settleHalt
  split
  · rename_i hp; exact enterHalted_keeps h hp.1
  · exact h

end Sys2Proof.Proofs

namespace Sys2Proof.Proofs

open Sys2Proof.Machine Sys2Proof.Safety Sys2Proof.Laws

variable {s t u : State}

/-! ### The head bus unit -/

/-! Changes of blocks that `Keeps` does not look at. -/

theorem chainage_keeps {c : Chainage} (h : Keeps s t) : Keeps s { t with chainage := c } := h.of_view rfl

theorem exposure_keeps {e : Exposure} (h : Keeps s t) : Keeps s { t with exposure := e } := h.of_view rfl

theorem playout_keeps {p : Playout} (h : Keeps s t) : Keeps s { t with playout := p } := h.of_view rfl

theorem emitting_keeps {r : State × List Event} (h : Keeps s r.1) : Keeps s (emitting r) := emitAll_keeps h

theorem hostTransferEnd_keeps {x : HostTransfer} {o : BusOutcome} {acked : Nat} {read : List Byte} (h : Keeps s t) :
    Keeps s (hostTransferEnd x o acked read t) := by
  have h' : Keeps s { t with bus := { t.bus with queue := t.bus.queue.tail } } := queueTail_keeps h rfl rfl
  exact ite_keeps (onward_keeps (ite_keeps h' (portWrite_keeps h')) fun h => complete_keeps h) (complete_keeps h')

theorem txnEnd_keeps {next : BusState} {o : BusOutcome} {acked : Nat} {read : List Byte} (h : Keeps s t) :
    Keeps s (txnEnd next o acked read t) := by
  unfold txnEnd
  split
  · exact h
  · split
    · exact emitting_keeps (h.of_view (gainWriteEnd_view _ _ _))
    · exact emitting_keeps (h.of_view (pollEnd_view _ _ _ _ _))
    · exact hostTransferEnd_keeps (h.of_view rfl)

theorem takeIntoHand_view (x : Txn) (s : State) : view (takeIntoHand x s) = view s := by
  simp only [takeIntoHand]
  split
  · rfl
  · split <;> rfl

theorem takeHost_keeps {x : HostTransfer} (h : Keeps s t) : Keeps s (takeHost x t) := by
  unfold takeHost
  split
  · split
    · exact enterFaulted_keeps h
    · exact h.of_view (takeIntoHand_view _ _)
  · exact h.of_view (takeIntoHand_view _ _)

theorem takeNext_keeps (h : Keeps s t) (hu : takeNext t = some u) : Keeps s u := by
  unfold takeNext at hu
  split at hu
  · cases hu
    exact h.of_view (takeIntoHand_view _ _)
  · split at hu
    · cases hu
      exact h.of_view ((takeIntoHand_view _ _).trans (by simp [view, updateAt]))
    · split at hu
      · cases hu
      · cases hu; exact takeHost_keeps h

theorem serveBus_keeps : ∀ {fuel : Nat} {t : State}, Keeps s t → Keeps s (serveBus fuel t)
  | 0, _, h => h
  | fuel + 1, _, h => by
    unfold serveBus
    split
    · split
      · exact h
      · rename_i hu
        exact ite_keeps (serveBus_keeps (txnEnd_keeps (takeNext_keeps h hu))) (takeNext_keeps h hu)
    · exact h

theorem busServe_keeps (h : Keeps s t) : Keeps s (busServe t) := serveBus_keeps h

theorem txnEndServe_keeps {next : BusState} {o : BusOutcome} {acked : Nat} {read : List Byte} (h : Keeps s t) :
    Keeps s (txnEndServe next o acked read t) := settleHalt_keeps (busServe_keeps (txnEnd_keeps h))

theorem loseArbitration_keeps {acked : Nat} (h : Keeps s t) : Keeps s (loseArbitration acked t) :=
  ite_keeps (h.of_view rfl) (txnEndServe_keeps (h.of_view rfl))

theorem completeResets_keeps {code : Nat} : ∀ {slots : List Nat} {t : State}, Keeps s t →
    Keeps s (completeResets code slots t)
  | [], _, h => h
  | _ :: slots, _, h => completeResets_keeps (slots := slots) (complete_keeps h)

theorem endRecovery_keeps {r : Recovery} (h : Keeps s t) : Keeps s (endRecovery r t) := by
  unfold endRecovery
  refine settleHalt_keeps (busServe_keeps (completeResets_keeps ?_))
  split
  · exact h.of_view rfl
  · exact emit_keeps (h.of_view rfl)

theorem gainDropped_view (s : State) : view (gainDropped s) = view s := by
  simp only [gainDropped]
  split <;> rfl

theorem withdrawGain_view (s : State) : view (withdrawGain s) = view s := rfl

theorem busResetOp_keeps {slot acked : Nat} (h : Keeps s t) : Keeps s (busResetOp slot acked t) :=
  ite_keeps (h.of_view rfl) <| onward_keeps (ite_keeps (txnEnd_keeps h) h) fun h =>
    (h.of_view (gainDropped_view _)).of_view rfl

theorem abortTransfers_keeps : ∀ {xs : List HostTransfer} {t : State}, Keeps s t → Keeps s (abortTransfers xs t)
  | [], _, h => h
  | _ :: _, _, h => onward_keeps (complete_keeps h) fun h => abortTransfers_keeps h

theorem haltBus_keeps (h : Keeps s t) : Keeps s (haltBus t) := by
  refine abortTransfers_keeps (h.change (bounded_of_le (queue := ?_)))
  show (if transferInHand t.bus then t.bus.queue.take 1 else []).length ≤ _
  split <;> simp

theorem busFrame_keeps (h : Keeps s t) : Keeps s (busFrame t) := by
  refine busServe_keeps (h.of_view ?_)
  simp only [view]
  split <;> simp

theorem failInHand_keeps {o : BusOutcome} (h : Keeps s t) : Keeps s (failInHand o t) :=
  txnEndServe_keeps (h.of_view rfl)

/-! ### The overlay unit -/

theorem appendFifo_fifo_le (chars : List Byte) (o : Overlay) : (appendFifo chars o).fifo.length ≤ 128 := by
  simp only [appendFifo, List.length_drop, List.length_append]
  omega

/-- A change of the overlay unit that keeps the bound of the banner FIFO. -/
theorem overlay_keeps {o : Overlay} (h : Keeps s t) (ho : t.overlay.fifo.length ≤ 128 → o.fifo.length ≤ 128) :
    Keeps s { t with overlay := o } :=
  h.change (bounded_of_le (fifo := ho))

theorem writeCells_fifo (cfg : Cfg) (c : Bool) (cells : List (Nat × Nat × Cell)) (o : Overlay) :
    (writeCells cfg c cells o).overlay.fifo = o.fifo := rfl

theorem editCells_fifo (cfg : Cfg) (c : Bool) (cells : List (Nat × Nat × Cell)) (o : Overlay) :
    (editCells cfg c cells o).overlay.fifo = o.fifo := by
  unfold editCells
  split <;> rfl

theorem applyWrite_fifo (cfg : Cfg) (args : List Byte) (o : Overlay) :
    (applyWrite cfg args o).overlay.fifo = o.fifo := by
  simp only [applyWrite]
  split
  case h_4 => unfold clearLayer; split <;> rfl
  case h_5 => rfl
  all_goals
    split
    · first | exact editCells_fifo _ _ _ _ | rfl
    · rfl

theorem applyStyle_fifo (args : List Byte) (o : Overlay) (h : o.fifo.length ≤ 128) :
    (applyStyle args o).overlay.fifo.length ≤ 128 := by
  unfold applyStyle
  split
  · simp only [stylePalette]; split <;> exact h
  · simp only [styleMasks]; split <;> exact h
  · exact h
  · simp only [styleBannerText]
    split
    · exact h
    · exact appendFifo_fifo_le _ _
  · exact h
  · unfold styleMarkAttribute; split <;> exact h
  · exact h

theorem applyFont_fifo (args buf : List Byte) (o : Overlay) : (applyFont args buf o).overlay.fifo = o.fifo := by
  simp only [applyFont]

/-- No edit takes the banner FIFO above its bound (R69). -/
theorem applyEdit_fifo (cfg : Cfg) (e : Request) (buf : Option (List Byte)) (o : Overlay) (h : o.fifo.length ≤ 128) :
    (applyEdit cfg e buf o).overlay.fifo.length ≤ 128 := by
  unfold applyEdit
  split
  · split
    · exact (congrArg List.length (applyFont_fifo _ _ _)).trans_le h
    · exact h
  · split
    · exact applyStyle_fifo _ _ h
    · split
      · exact (congrArg List.length (editCells_fifo _ _ _ _)).trans_le h
      · exact (congrArg List.length (applyWrite_fifo _ _ _)).trans_le h

theorem finishEdit_keeps {e : Request} {rest : List Request} {buf : Option (List Byte)} (h : Keeps s t) :
    Keeps s (finishEdit e rest buf t) :=
  complete_keeps (overlay_keeps h (applyEdit_fifo _ _ _ _))

theorem applyEdits_keeps : ∀ {es : List Request} {t : State}, Keeps s t → Keeps s (applyEdits es t)
  | [], _, h => h
  | _ :: _, _, h => by
    unfold applyEdits
    split
    · exact onward_keeps (finishEdit_keeps h) applyEdits_keeps
    · split
      · exact enterFaulted_keeps h
      · exact onward_keeps (finishEdit_keeps h) applyEdits_keeps

theorem advanceBanner_fifo (cfg : Cfg) (o : Overlay) (h : o.fifo.length ≤ 128) :
    (advanceBanner cfg o).fifo.length ≤ 128 := by
  simp only [advanceBanner]
  split
  · split
    · simp only [List.length_tail]; omega
    · exact h
  · exact h

theorem overlayFrame_keeps (h : Keeps s t) : Keeps s (overlayFrame t) := by
  unfold overlayFrame
  refine ite_keeps (onward_keeps (applyEdits_keeps h) fun h => overlay_keeps h fun hf => ?_) h
  refine advanceBanner_fifo _ _ ?_
  split <;> exact hf

theorem startFlash_keeps (h : Keeps s t) : Keeps s (startFlash t) := ite_keeps h (h.of_view rfl)

/-! ### The list engine -/

theorem scanEvent_keeps (h : Keeps s t) : Keeps s (scanEvent t) := ite_keeps (h.of_view rfl) h

theorem endScan_keeps (h : Keeps s t) : Keeps s (endScan t) := h.of_view rfl

theorem advanceCursor_keeps (h : Keeps s t) : Keeps s (advanceCursor t) := ite_keeps (h.of_view rfl) (h.of_view rfl)

theorem listFault_keeps {lap : Nat} (h : Keeps s t) : Keeps s (listFault lap t) :=
  onward_keeps (emit_keeps (h.of_view rfl)) fun h => h.of_view rfl

theorem resyncNow_keeps (h : Keeps s t) : Keeps s (resyncNow t) := h.of_view rfl

theorem finishHand_keeps (h : Keeps s t) : Keeps s (finishHand t) := by
  unfold finishHand
  have h' := ite_keeps (c := t.list.resyncWaiting = true) (resyncNow_keeps h) h
  exact settleHalt_keeps (ite_keeps h' (endScan_keeps h'))

/-- The request in hand leaves the scan's hand. -/
theorem released_keeps (h : Keeps s t) : Keeps s (released t) :=
  h.change (bounded_of_le (handed := .inr rfl))

theorem handOver_keeps {isKind : Nat → Bool} {f : Request → State → State}
    (hf : ∀ (r : Request) (u : State), Keeps s u → Keeps s (f r u)) (h : Keeps s t) : Keeps s (handOver isKind f t) := by
  unfold handOver
  split
  · exact h
  · exact ite_keeps (finishHand_keeps (hf _ _ (released_keeps h))) h

theorem badArgument_keeps {r : Request} (h : Keeps s t) : Keeps s (badArgument r t) := complete_keeps h

/-! ### The ring and the capture unit -/

theorem updateStore_keeps {k : Nat} {f : RingEntry → RingEntry} (h : Keeps s t) : Keeps s (updateStore k f t) :=
  h.of_view rfl

theorem writeFillingHeader_keeps {k : Nat} {seq : Word} (h : Keeps s t) : Keeps s (writeFillingHeader k seq t) :=
  onward_keeps (portWrite_keeps h) fun h => onward_keeps (portWrite_keeps h) fun h => portWrite_keeps h

/-- A change of the still orders that keeps their number within its bound and a claimed head order at the head. -/
theorem still_keeps {x : Still} (h : Keeps s t) (hl : t.still.orders.length ≤ 2 → x.orders.length ≤ 2)
    (hc : HeadClaimed t → HeadClaimed { t with still := x }) (ho : OrdersOver t → OrdersOver { t with still := x }) :
    Keeps s { t with still := x } :=
  h.change (bounded_of_le (orders := hl)) (claimed := hc) (ended := ho)

theorem noteBoostSeq_keeps {seq : Word} (h : Keeps s t) : Keeps s { t with still := noteBoostSeq seq t.still } := by
  cases ho : t.still.orders with
  | nil =>
    have hn : noteBoostSeq seq t.still = t.still := by simp [noteBoostSeq, ho]
    rw [hn]; exact h
  | cons o os =>
    by_cases hc : o.claimed = true
    · have hn : noteBoostSeq seq t.still = { t.still with orders := { o with frameSeq := seq } :: os } := by
        simp [noteBoostSeq, ho, hc]
      rw [hn]
      exact still_keeps h (fun hl => by simpa [ho] using hl) (fun _ => ⟨_, rfl, hc⟩) fun hn => by simp [hn.1] at ho
    · have hn : noteBoostSeq seq t.still = t.still := by simp [noteBoostSeq, ho, hc]
      rw [hn]; exact h

theorem triggerStart_keeps {k : Nat} (h : Keeps s t) : Keeps s (triggerStart k t) := by
  unfold triggerStart
  split
  · exact h
  · refine onward_keeps (writeFillingHeader_keeps (updateStore_keeps (h.of_view rfl))) fun h =>
      onward_keeps (lampDo_keeps h) fun h => ?_
    split
    · exact (noteBoostSeq_keeps h).of_view rfl
    · exact h.of_view rfl

theorem deferFrame_keeps (h : Keeps s t) : Keeps s (deferFrame t) :=
  ite_keeps (h.of_view rfl) (emit_keeps (h.of_view rfl))

theorem captureSelect_keeps (h : Keeps s t) : Keeps s (captureSelect t) := by
  unfold captureSelect
  split
  · exact triggerStart_keeps h
  · exact deferFrame_keeps h

theorem awaitDue_keeps (h : Keeps s t) : Keeps s (awaitDue t) := by
  simp only [awaitDue]
  have h' : Keeps s { t with capture := { t.capture with trig := .waiting } } := h.of_view rfl
  split
  · exact h'
  · exact ite_keeps (captureSelect_keeps h') h'

theorem reportRelease_keeps (h : Keeps s t) : Keeps s (reportRelease t) := by
  unfold reportRelease
  split
  · split
    · exact triggerStart_keeps h
    · exact h
  · exact h

/-- The plan goes. -/
theorem planGone_keeps {c : Capture} (h : Keeps s t) (hc : c.plan = none) : Keeps s { t with capture := c } :=
  h.change (plan := .inr hc)

/-- A change of the capture unit that leaves the plan. -/
theorem capture_keeps {c : Capture} (h : Keeps s t) (hc : c.plan = t.capture.plan) : Keeps s { t with capture := c } :=
  h.change (plan := .inl hc)

theorem triggerEndOp_keeps (h : Keeps s t) : Keeps s (triggerEndOp t) := by
  unfold triggerEndOp
  split
  · exact h
  · exact lampDo_keeps (h.of_view rfl)

theorem countAbandon_keeps {seq : Word} (h : Keeps s t) : Keeps s (countAbandon seq t) :=
  ite_keeps (emit_keeps (h.of_view rfl)) (h.of_view rfl)

theorem writeCompleteHeader_keeps {f : Frame} {p : FramePlan} (h : Keeps s t) : Keeps s (writeCompleteHeader f p t) := by
  unfold writeCompleteHeader
  exact onward_keeps (portWrite_keeps h) fun h => onward_keeps (portWrite_keeps h) fun h => portWrite_keeps h

theorem leaveLos_keeps {seq : Word} (h : Keeps s t) : Keeps s (leaveLos seq t) :=
  ite_keeps (emit_keeps (h.of_view rfl)) h

theorem markComplete_keeps {k : Nat} {b : Bool} (h : Keeps s t) : Keeps s (markComplete k b t) := updateStore_keeps h

theorem exposureReport_view (r : Report) (s : State) : view (exposureReport r s) = view s := by
  simp only [exposureReport]
  split
  · split
    · split
      · exact (handGain_view _).trans rfl
      · rfl
    · exact (show view _ = view (handGain _) from rfl).trans ((handGain_view _).trans rfl)
  · rfl

/-! ### The still unit -/

theorem orderFailed_keeps {o : StillOrder} {code w0 w1 cause entry : Nat} (h : Keeps s t) :
    Keeps s (orderFailed o code w0 w1 cause entry t) := by
  unfold orderFailed
  split
  · exact complete_keeps h
  · exact emit_keeps h
  · exact emit_keeps h

theorem joinOrder_keeps {o : StillOrigin} (h : Keeps s t) (hr : t.part = .running) (ho : orderRoom t = true) :
    Keeps s (joinOrder o t) := by
  refine still_keeps h (fun _ => ?_) (fun hh => ?_) fun hn => absurd hr hn.2
  · simp only [orderRoom, decide_eq_true_eq] at ho
    simp only [List.length_append, List.length_singleton]
    omega
  · obtain ⟨x, hx, hc⟩ := hh
    exact ⟨x, by simp only [Option.mem_def] at hx; simp [List.head?_append, hx], hc⟩

theorem autoStill_keeps {o : StillOrigin} (h : Keeps s t) : Keeps s (autoStill o t) := by
  unfold autoStill
  split
  · rename_i hr
    split
    · rename_i ho; exact joinOrder_keeps h hr ho
    · exact orderFailed_keeps h
  · exact orderFailed_keeps h

theorem releaseStillPin_keeps {k : Nat} (h : Keeps s t) : Keeps s (releaseStillPin k t) :=
  reportRelease_keeps (updateStore_keeps h)

theorem selectionFailed_keeps {o : StillOrder} {k : Nat} {seq : Word} {table : List Byte} (h : Keeps s t) :
    Keeps s (selectionFailed o k seq table t) := by
  unfold selectionFailed
  split
  · exact orderFailed_keeps (releaseStillPin_keeps h)
  · exact orderFailed_keeps (releaseStillPin_keeps h)

theorem beginCopy_keeps {o : StillOrder} {i k : Nat} {seq : Word} {table : List Byte} (h : Keeps s t) :
    Keeps s (beginCopy o i k seq table t) := by
  unfold beginCopy
  refine onward_keeps (portWrite_keeps h) fun h => onward_keeps (portWrite_keeps h) fun h => ?_
  split
  · exact enterFaulted_keeps h
  · exact onward_keeps (portWrite_keeps h) fun h => h.of_view rfl

theorem copyLine_keeps {c : StillCopy} {l : Nat} (h : Keeps s t) : Keeps s (copyLine c l t) := by
  unfold copyLine
  split
  · exact enterFaulted_keeps h
  · exact portWrite_keeps h

theorem copyLines_keeps {c : StillCopy} : ∀ {ls : List Nat} {t : State}, Keeps s t → Keeps s (copyLines c ls t)
  | [], _, h => h
  | _ :: _, _, h => onward_keeps (copyLine_keeps h) copyLines_keeps

theorem stillTick_keeps (h : Keeps s t) : Keeps s (stillTick t) := by
  unfold stillTick
  split
  · exact h
  · exact ite_keeps (onward_keeps (copyLine_keeps h) fun h => h.of_view rfl) h

theorem answerCopy_keeps {c : StillCopy} (h : Keeps s t) : Keeps s (answerCopy c t) := by
  unfold answerCopy
  split
  · exact complete_keeps h
  · exact h
  · exact h

theorem finishCopy_keeps {c : StillCopy} (h : Keeps s t) : Keeps s (finishCopy c t) :=
  onward_keeps (copyLines_keeps h) fun h => onward_keeps (portWrite_keeps h) fun h =>
    onward_keeps (releaseStillPin_keeps h) fun h => onward_keeps (answerCopy_keeps (h.of_view rfl)) fun h =>
      settleHalt_keeps (h.of_view rfl)

/-! ### The chainage unit -/

theorem evalMarks_keeps (h : Keeps s t) : Keeps s (evalMarks t) := by
  unfold evalMarks
  split
  · exact h
  · rename_i next _
    have h' := startFlash_keeps (emit_keeps (e := Event.mark (markBeyond t.chainage next (marksCrossed t.chainage next - 1))
      (marksCrossed t.chainage next) t.chainage.x) (h.of_view (u := { t with chainage :=
        { t.chainage with nextMark := some (markBeyond t.chainage next (marksCrossed t.chainage next)) } }) rfl))
    exact ite_keeps (ite_keeps (autoStill_keeps h') h') h

theorem evalTarget_keeps (h : Keeps s t) : Keeps s (evalTarget t) := by
  unfold evalTarget
  split
  · exact h
  · rename_i target _
    have h' := emit_keeps (e := Event.stopReached target t.chainage.x)
      (h.of_view (u := { t with chainage := t.chainage.fire }) rfl)
    exact ite_keeps (ite_keeps (autoStill_keeps h') h') h

theorem setHeld_keeps {b : Bool} (h : Keeps s t) : Keeps s (setHeld b t) := ite_keeps h (emit_keeps (h.of_view rfl))

theorem resumed_keeps {b : Bool} {count : Word} (h : Keeps s t) : Keeps s (resumed b count t) :=
  ite_keeps (emit_keeps h) h

theorem establishOrigin_keeps {count : Word} (h : Keeps s t) : Keeps s (establishOrigin count t) :=
  evalTarget_keeps (resumed_keeps (h.of_view rfl))

theorem acceptCandidate_keeps {resync : Bool} {count : Word} {raw : Int} (h : Keeps s t) :
    Keeps s (acceptCandidate resync count raw t) :=
  evalTarget_keeps (evalMarks_keeps (resumed_keeps (ite_keeps (emit_keeps (h.of_view rfl)) (h.of_view rfl))))

theorem checkCandidate_keeps {count : Word} (h : Keeps s t) : Keeps s (checkCandidate count t) :=
  ite_keeps (acceptCandidate_keeps h) (ite_keeps (h.of_view rfl) (acceptCandidate_keeps h))

theorem reelOp_keeps {count : Word} {fault : Bool} (h : Keeps s t) : Keeps s (reelOp count fault t) := by
  unfold reelOp
  split
  · exact setHeld_keeps h
  · split
    · exact h.of_view rfl
    · exact ite_keeps (checkCandidate_keeps h) (establishOrigin_keeps h)

theorem linkLossNotice_keeps (h : Keeps s t) : Keeps s (linkLossNotice t) := setHeld_keeps (h.of_view rfl)

theorem surfaceOp_keeps {kind : Byte} {hold : Bool} (h : Keeps s t) : Keeps s (surfaceOp kind hold t) :=
  emit_keeps (h.of_view rfl)

theorem chainageRunOp_keeps {r : Request} (h : Keeps s t) : Keeps s (chainageRunOp r t) := by
  unfold chainageRunOp
  refine ite_keeps (badArgument_keeps h) (complete_keeps ?_)
  split
  · exact chainage_keeps (evalTarget_keeps (chainage_keeps h))
  · exact chainage_keeps h

theorem chainageCalibrateOp_keeps {r : Request} (h : Keeps s t) : Keeps s (chainageCalibrateOp r t) :=
  ite_keeps (badArgument_keeps h) (complete_keeps (h.of_view rfl))

theorem markSetOp_keeps {r : Request} (h : Keeps s t) : Keeps s (markSetOp r t) :=
  ite_keeps (badArgument_keeps h) (complete_keeps (evalTarget_keeps (h.of_view rfl)))

theorem driveHoldOp_keeps {r : Request} (h : Keeps s t) : Keeps s (driveHoldOp r t) :=
  ite_keeps (badArgument_keeps h) (complete_keeps (h.of_view rfl))

/-! ### The link -/

theorem route_keeps {m : LinkMsg} (h : Keeps s t) : Keeps s (route m t) := by
  unfold route
  split
  · exact reelOp_keeps h
  · exact lampDo_keeps h
  · exact ite_keeps h (overlay_keeps h fun _ => appendFifo_fifo_le _ _)
  · exact h
  · exact surfaceOp_keeps h
  · exact surfaceOp_keeps h
  · exact emit_keeps h

theorem linkHeard_keeps {kind : Byte} (h : Keeps s t) : Keeps s (linkHeard kind t) :=
  ite_keeps (h.of_view rfl) (emit_keeps (h.of_view rfl))

theorem acceptMessage_keeps {m : LinkMsg} (h : Keeps s t) : Keeps s (acceptMessage m t) :=
  route_keeps (linkHeard_keeps h)

theorem receive_keeps {isIt : LinkMsg → Bool} {moment : Nat} {bytes : List Byte} (h : Keeps s t) :
    Keeps s (receive isIt moment bytes t) := by
  simp only [receive]
  split
  · exact ite_keeps (acceptMessage_keeps (h.of_view rfl)) h
  · exact h

/-- A HEAD_STATUS takes no host place (R136). -/
theorem placeStatus_places (payload : List Byte) (q : List UplinkMsg) :
    ((placeStatus payload q).filter fun m => m.host.isSome).length = (q.filter fun m => m.host.isSome).length := by
  simp only [placeStatus]
  split
  · rename_i h
    clear h
    induction q with
    | nil => rfl
    | cons m q ih => cases hm : m.host <;> simp_all
  · simp [List.filter_append]

theorem buildHeadStatus_keeps (h : Keeps s t) : Keeps s (buildHeadStatus t) :=
  h.of_view (by
    have := placeStatus_places (headStatusPayload t) t.link.queue
    simpa [view, hostPlaces, buildHeadStatus] using this)

theorem linkFrame_keeps (h : Keeps s t) : Keeps s (linkFrame t) :=
  ite_keeps (buildHeadStatus_keeps h) (ite_keeps (h.of_view rfl) h)

/-- A change of the link unit by which no host place is taken. -/
theorem link_keeps {l : Link} (h : Keeps s t) (hl : hostPlaces l ≤ hostPlaces t.link) : Keeps s { t with link := l } :=
  h.change (bounded_of_le (places := hl))

theorem transmitStart_keeps (h : Keeps s t) : Keeps s (transmitStart t) := by
  unfold transmitStart
  split
  · exact h
  · rename_i m rest hq
    exact link_keeps h (by
      simp only [hostPlaces, hq]
      exact ((List.sublist_cons_self m rest).filter _).length_le)

theorem transmitEnd_keeps {m : UplinkMsg} (h : Keeps s t) : Keeps s (transmitEnd m t) := by
  unfold transmitEnd
  refine settleHalt_keeps ?_
  split
  · exact h.of_view rfl
  · exact complete_keeps (h.of_view rfl)

theorem abortUplinks_keeps : ∀ {ms : List UplinkMsg} {t : State}, Keeps s t → Keeps s (abortUplinks ms t)
  | [], _, h => h
  | _ :: _, _, h => by
    unfold abortUplinks
    split
    · exact abortUplinks_keeps h
    · exact onward_keeps (complete_keeps h) abortUplinks_keeps

theorem haltLink_keeps (h : Keeps s t) : Keeps s (haltLink t) :=
  abortUplinks_keeps (link_keeps h ((hostPlaces_filter_isNone t.link t.link.silence).le.trans (Nat.zero_le _)))

/-! ### Requests -/

theorem holdStore_keeps {r : Request} {k : Nat} (h : Keeps s t) : Keeps s (holdStore r k t) := by
  simp only [holdStore]
  exact onward_keeps (portWrite_keeps (updateStore_keeps h)) fun h => complete_keeps h

theorem frameHoldOp_keeps {r : Request} (h : Keeps s t) : Keeps s (frameHoldOp r t) := by
  unfold frameHoldOp
  split
  · exact complete_keeps h
  · exact ite_keeps (complete_keeps h) (ite_keeps (complete_keeps h) (holdStore_keeps h))

theorem frameReleaseOp_keeps {r : Request} (h : Keeps s t) : Keeps s (frameReleaseOp r t) := by
  unfold frameReleaseOp
  split
  · exact complete_keeps h
  · exact onward_keeps (portWrite_keeps (updateStore_keeps h)) fun h =>
      onward_keeps (complete_keeps h) reportRelease_keeps

theorem snapshotOp_keeps {r : Request} (h : Keeps s t) : Keeps s (snapshotOp r t) := by
  unfold snapshotOp
  split
  · rename_i hr
    split
    · rename_i ho; exact joinOrder_keeps h hr ho
    · exact complete_keeps h
  · exact complete_keeps h

theorem appendEdit_keeps {r : Request} (h : Keeps s t) : Keeps s (appendEdit r t) := h.of_view rfl

theorem tellTemperature_keeps {b a : Bool} (h : Keeps s t) : Keeps s (tellTemperature b a t) :=
  ite_keeps (h.of_view rfl) (ite_keeps (lampDo_keeps h) h)

theorem pollSetOp_keeps {r : Request} (h : Keeps s t) : Keeps s (pollSetOp r t) :=
  ite_keeps (badArgument_keeps h) <| onward_keeps
    (tellTemperature_keeps (h.of_view (by simp [view, replacePoll, updateAt]))) fun h => complete_keeps h

theorem latchClearOp_keeps {r : Request} (h : Keeps s t) : Keeps s (latchClearOp r t) :=
  ite_keeps (badArgument_keeps h) (complete_keeps (h.of_view rfl))

theorem lampSetOp_keeps {r : Request} (h : Keeps s t) : Keeps s (lampSetOp r t) :=
  ite_keeps (badArgument_keeps h) <| onward_keeps (lampDo_keeps h) fun h => complete_keeps h

theorem exposureSetOp_keeps {r : Request} (h : Keeps s t) : Keeps s (exposureSetOp r t) := by
  unfold exposureSetOp
  exact ite_keeps (badArgument_keeps h) <| onward_keeps
    (complete_keeps (exposure_keeps ((exposure_keeps h).of_view (handGain_view _)))) busServe_keeps

/-! ### Playout and the output frame start -/

theorem turnToFill_keeps (h : Keeps s t) : Keeps s (turnToFill t) := by
  unfold turnToFill
  split
  · exact h.of_view rfl
  · exact reportRelease_keeps (h.of_view rfl)

theorem openStall_keeps (h : Keeps s t) : Keeps s (openStall t) := by
  unfold openStall
  exact onward_keeps (emit_keeps (playout_keeps h)) fun h => turnToFill_keeps (playout_keeps h)

theorem underrun_keeps (h : Keeps s t) : Keeps s (underrun t) := by
  simp only [underrun]
  have h' : Keeps s { t with playout := { t.playout with
      underruns := t.playout.underruns + 1, consec := min 255 (t.playout.consec + 1) } } := h.of_view rfl
  refine ite_keeps (turnToFill_keeps h') (ite_keeps (openStall_keeps h') (ite_keeps (turnToFill_keeps h')
    (ite_keeps (turnToFill_keeps h') ?_)))
  split <;> exact h'.of_view rfl

theorem showStore_keeps {k : Nat} {pinned : State} (h : Keeps s t) (hp : view pinned = view t) :
    Keeps s (showStore k pinned t) := by
  simp only [showStore]
  have released : ∀ u, Keeps s u → Keeps s (if t.playout.shown.isSome = true then onward u reportRelease else u) :=
    fun u hu => ite_keeps (onward_keeps hu reportRelease_keeps) hu
  exact released _ (ite_keeps (emit_keeps (playout_keeps (h.of_view hp))) (playout_keeps (h.of_view hp)))

theorem pinStore_view {k : Nat} (hp : pinStore k s = some t) : view t = view s := by
  unfold pinStore at hp
  split at hp
  · cases hp; rfl
  · cases hp

theorem selectShown_keeps : ∀ {fuel : Nat} {refused : List Nat} {t : State}, Keeps s t →
    Keeps s (selectShown fuel refused t)
  | 0, _, _, h => underrun_keeps h
  | fuel + 1, _, _, h => by
    unfold selectShown
    split
    · exact underrun_keeps h
    · split
      · rename_i hp; exact showStore_keeps h (pinStore_view hp)
      · exact selectShown_keeps h

theorem playoutFrame_keeps (h : Keeps s t) : Keeps s (playoutFrame t) := by
  unfold playoutFrame
  split
  · exact selectShown_keeps h
  · exact selectShown_keeps h
  · exact h.of_view rfl
  · exact h.of_view rfl
  · exact h
  · exact h

theorem blockFrame_keeps {b : FrameBlock} (h : Keeps s t) : Keeps s (blockFrame b t) := by
  cases b with
  | playout => exact playoutFrame_keeps h
  | lamp => exact lampDo_keeps h
  | headBus => exact busFrame_keeps h
  | overlay => exact overlayFrame_keeps h
  | link => exact linkFrame_keeps h

theorem runBlocks_keeps : ∀ {bs : List FrameBlock} {t : State}, Keeps s t → Keeps s (runBlocks bs t)
  | [], _, h => h
  | _ :: bs, _, h => runBlocks_keeps (bs := bs) (blockFrame_keeps h)

theorem statusFrame_keeps {before : State} (h : Keeps s t) : Keeps s (statusFrame before t) := by
  simp only [statusFrame]
  split
  · exact portWrite_keeps h
  · exact portWrite_keeps h
  · exact portWrite_keeps h
  · exact h
  · exact h
  · exact h

theorem frameStart_keeps {e : Nat} {order : List FrameBlock} (h : Keeps s t) : Keeps s (frameStart e order t) :=
  scanEvent_keeps (statusFrame_keeps (runBlocks_keeps (h.of_view rfl)))

end Sys2Proof.Proofs

namespace Sys2Proof.Proofs

open Sys2Proof.Machine Sys2Proof.Safety Sys2Proof.Laws

variable {s t u : State}

/-! ## The operations that do more than `Keeps` allows -/

theorem onward_steps_of_ne {k : State → State} (h : Steps s t) (hk : t.part ≠ .faulted → Steps s (k t)) :
    Steps s (onward t k) := by
  unfold onward
  split
  · exact h
  · rename_i hp; exact hk hp

theorem onward_steps {k : State → State} (h : Steps s t) (hk : Steps s (k t)) : Steps s (onward t k) :=
  onward_steps_of_ne h fun _ => hk

theorem ite_steps {c : Prop} [Decidable c] (ht : Steps s t) (hu : Steps s u) : Steps s (if c then t else u) := by
  split
  · exact ht
  · exact hu

/-- An operation that keeps, after a whole one. -/
theorem Steps.keeps (h : Steps s t) (h' : Keeps t u) : Steps s u := h.trans h'.toSteps

/-! ### The fixing of a plan -/

theorem claimHead_length (x : Still) : (claimHead x).orders.length = x.orders.length := by
  unfold claimHead
  split
  · rfl
  · rename_i h; simp [h]

theorem fixPlan_moves (h : Moves s t) : Moves s (fixPlan t) := by
  refine h.change (bounded_of_le (orders := fun ho => ?_))
  simp only [fixPlan]
  split
  · rwa [claimHead_length]
  · exact ho

/-- A plan fixed for a boost frame has claimed the head order (R161). -/
theorem fixPlan_held (s : State) : BoostFrameHeld (fixPlan s) := by
  rintro p hp hb
  cases hp
  have hw : boostWaiting s.still = true := hb
  refine .inl ?_
  simp only [fixPlan, hw, if_true]
  cases ho : s.still.orders with
  | nil => simp [boostWaiting, ho] at hw
  | cons o os => exact ⟨{ o with claimed := true, frameSeq := 0 }, by simp [claimHead, ho], rfl⟩

theorem fixPlan_noBoost (h : boostWaiting s.still = false) : NoBoost (fixPlan s) := by
  rintro p hp
  cases hp
  exact h

theorem planNext_steps (h : Moves s t) : Steps s (planNext t) := by
  simp only [planNext]
  split
  · have h' : Steps s (fixPlan { t with capture := { t.capture with plan := none, frame := none } }) :=
      ⟨fixPlan_moves h.change, fun _ => fixPlan_held _⟩
    exact h'.keeps (awaitDue_keeps (.refl _))
  · exact ⟨h.change, fun _ => NoBoost.held fun p hp => nomatch hp⟩

theorem planNext_noBoost (h : boostWaiting s.still = false) : NoBoost (planNext s) := by
  simp only [planNext]
  split
  · exact (awaitDue_keeps (.refl _)).noBoost (fixPlan_noBoost h)
  · exact fun p hp => nomatch hp

/-- While a boost frame keeps its order, no other order waits for one. -/
theorem boostWaiting_of_held (h : HeadClaimed s ∨ OrdersOver s) : boostWaiting s.still = false := by
  obtain ⟨o, ho, hc⟩ | ⟨ho, -⟩ := h
  · cases hs : s.still.orders with
    | nil => simp [hs] at ho
    | cons x xs => simp_all [boostWaiting]
  · simp [boostWaiting, ho]

/-! ### The end of the claimed order -/

/-- What an operation does that may take the claimed order from the queue. -/
def KeepsButOrder (s t : State) : Prop := Keeps s t ∨ Keeps (dropHeadOrder s) t

theorem KeepsButOrder.moves (h : KeepsButOrder s t) : Moves s t := by
  obtain h | h := h
  · exact h.toMoves
  · refine ((Moves.refl s).change (bounded_of_le (orders := fun ho => ?_))).trans h.toMoves
    simp only [dropHeadOrder, List.length_tail]
    omega

theorem KeepsButOrder.noBoost (h : KeepsButOrder s t) (hs : NoBoost s) : NoBoost t := by
  obtain h | h := h
  · exact h.noBoost hs
  · exact h.noBoost hs

theorem boostLost_keepsButOrder (seq : Word) (s : State) : KeepsButOrder s (boostLost seq s) := by
  unfold boostLost
  split
  · exact .inl (.refl _)
  · split
    · exact .inr (orderFailed_keeps (.refl _))
    · exact .inl (.refl _)

theorem boostDone_keepsButOrder (k : Nat) (seq : Word) (s : State) : KeepsButOrder s (boostDone k seq s) := by
  unfold boostDone
  split
  · exact .inl (.refl _)
  · split
    · refine .inr ?_
      simp only []
      split
      · exact enterFaulted_keeps (.refl _)
      · split
        · exact selectionFailed_keeps (.refl _)
        · exact beginCopy_keeps (.refl _)
    · exact .inl (.refl _)

/-- The end of a frame with the plan `p`: the next plan is fixed, and then the still unit hears of a boost frame. The
order that `p` had claimed is the one that ends, and no boost frame is planned beside it. -/
theorem frameEnd_steps {p : FramePlan} {v w : State} (hp : s.capture.plan = some p) (h : Keeps s t)
    (hu : Keeps (planNext t) u) (hv : KeepsButOrder u v) (hw : w = if p.boost = true then v else u) : Steps s w := by
  have hn : Steps s u := (planNext_steps h.toMoves).keeps hu
  rw [hw]
  split
  · rename_i hb
    refine ⟨hn.toMoves.trans hv.moves, fun hs => ?_⟩
    have hw := boostWaiting_of_held ((hs p hp hb).imp h.claimed h.ended)
    exact (hv.noBoost (hu.noBoost (planNext_noBoost hw))).held
  · exact hn

theorem abandonFrame_steps {f : Frame} {p : FramePlan} (hp : s.capture.plan = some p) (h : Keeps s t) :
    Steps s (abandonFrame f p.boost t) := by
  have h1 : Keeps s (portWrite (storeBase t.cfg f.store) [0] t) := portWrite_keeps h
  have h2 := countAbandon_keeps (seq := f.seq) (updateStore_keeps (k := f.store) (f := fun e => { e with state := .void }) h1)
  have h3 := planNext_steps h2.toMoves
  have h4 := frameEnd_steps hp h2 (.refl _) (boostLost_keepsButOrder f.seq _) rfl
  unfold abandonFrame
  exact onward_steps h1.toSteps (onward_steps h2.toSteps (onward_steps h3 (onward_steps h4
    (h4.keeps (settleHalt_keeps (.refl _))))))

/-- What follows a frame's mark in the ring (R29 steps 4 to 6). -/
theorem afterComplete_steps {p : FramePlan} {r : Report} {k : Nat} {seq : Word} (hp : s.capture.plan = some p)
    (h : Keeps s t) : Steps s (onward (planNext t) fun s => onward (busServe (exposureReport r s)) fun s =>
      onward (if p.boost then boostDone k seq s else s) settleHalt) := by
  have h1 := planNext_steps h.toMoves
  have h2 : Keeps (planNext t) (busServe (exposureReport r (planNext t))) :=
    busServe_keeps ((Keeps.refl _).of_view (exposureReport_view _ _))
  have h3 := frameEnd_steps hp h h2 (boostDone_keepsButOrder k seq _) rfl
  exact onward_steps h1 (onward_steps (h1.keeps h2) (onward_steps h3 (h3.keeps (settleHalt_keeps (.refl _)))))

theorem completeFrame_steps {f : Frame} {p : FramePlan} (hp : s.capture.plan = some p) (h : Keeps s t) :
    Steps s (completeFrame f p t) := by
  have h1 := writeCompleteHeader_keeps (f := f) (p := p) (capture_keeps (c := { t.capture with deadline := none }) h rfl)
  have h2 := leaveLos_keeps (seq := f.seq) h1
  unfold completeFrame
  exact onward_steps h1.toSteps (onward_steps h2.toSteps
    (afterComplete_steps hp (capture_keeps (markComplete_keeps h2) rfl)))

/-- The frame in READOUT has a plan, whose boost flag comes with it. -/
theorem frameInReadout_plan {f : Frame} {b : Bool} (h : frameInReadout s = some (f, b)) :
    ∃ p, s.capture.plan = some p ∧ b = p.boost := by
  unfold frameInReadout at h
  split at h
  · split at h
    · rename_i p _ hp
      cases h
      exact ⟨p, hp, rfl⟩
    · cases h
  · cases h

theorem takeLine_steps {f : Frame} {p : FramePlan} {bytes : List Byte} (hp : s.capture.plan = some p)
    (h : Keeps s t) : Steps s (takeLine f p.boost bytes t) := by
  have h' := portWrite_keeps (a := lineBase t.cfg f.store f.lines) (bs := lineStored t f bytes) h
  simp only [takeLine]
  exact onward_steps h'.toSteps (ite_steps (abandonFrame_steps hp h') (Keeps.toSteps (capture_keeps h' rfl)))

theorem pixelLineOp_steps {bytes : List Byte} : Steps s (pixelLineOp bytes s) := by
  unfold pixelLineOp
  split
  · exact (Keeps.refl s).toSteps
  · rename_i hf
    obtain ⟨p, hp, rfl⟩ := frameInReadout_plan hf
    exact ite_steps (takeLine_steps hp (.refl s)) (Keeps.refl s).toSteps

theorem frameCompleteOp_steps : Steps s (frameCompleteOp s) := by
  unfold frameCompleteOp
  split
  · rename_i hp
    exact ite_steps (completeFrame_steps hp (.refl s)) (Keeps.refl s).toSteps
  · exact (Keeps.refl s).toSteps

/-! ### HALT -/

/-- The orders still to be ended, of which no more are left than there were. -/
theorem orders_moves {os : List StillOrder} (hl : QueuesBounded s → os.length ≤ 2) (h : Moves s t) :
    Moves s { t with still := { t.still with orders := os } } where
  wf := h.wf
  loading := h.loading
  bounded hb := bounded_of_le (orders := fun _ => hl hb) (h := h.bounded hb)
  cfg := h.cfg
  silent := h.silent

theorem abortOrders_moves : ∀ {os : List StillOrder} {t : State}, (QueuesBounded s → os.length ≤ 2) → Moves s t →
    Moves s (abortOrders os t)
  | [], _, _, h => h
  | o :: os, t, hl, h => by
    have hl' : QueuesBounded s → os.length ≤ 2 := fun hs => (Nat.le_succ _).trans (hl hs)
    have h' := (orders_moves hl' h).trans (orderFailed_keeps (o := o) (code := rcAborted) (w0 := 0)
      (w1 := o.frameSeq.toNat) (cause := 5) (entry := 0xFF) (.refl _)).toMoves
    unfold abortOrders onward
    split
    · exact h'
    · exact abortOrders_moves hl' h'

/-- Outside RUNNING, once every order has ended, no boost frame is left without its order: none has an order any more, or
a memory error has ended the frame itself (R165, R10). -/
theorem abortOrders_held : ∀ {os : List StillOrder} {t : State}, (os = [] → t.still.orders = []) →
    t.part ≠ .running → t.part ≠ .faulted → BoostFrameHeld (abortOrders os t)
  | [], _, ho, hp, _ => fun _ _ _ => .inr ⟨ho rfl, hp⟩
  | o :: os, t, _, hp, hf => by
    have h' := orderFailed_keeps (o := o) (code := rcAborted) (w0 := 0) (w1 := o.frameSeq.toNat) (cause := 5)
      (entry := 0xFF) (.refl { t with still := { t.still with orders := os } })
    unfold abortOrders onward
    split
    · rename_i hf'
      exact NoBoost.held fun p hp => by rw [h'.fault hf hf'] at hp; cases hp
    · rename_i hf'
      refine abortOrders_held (fun ho => ?_) (h'.part.ne_running hp) hf'
      exact (h'.ended ⟨ho, hp⟩).1

theorem setPart_halting_steps (hp : s.part = .running) : Steps s (setPart .halting s) where
  wf := id
  loading h := by rw [LoadingMatchesPart, hp] at h; exact h
  bounded := bounded_of_le
  cfg := rfl
  silent _ h := by rw [hp] at h; simp at h
  boost h p hpl hb := (h p hpl hb).imp id fun ho => absurd hp ho.2

theorem haltCapture_keeps (h : Keeps s t) : Keeps s (haltCapture t) := ite_keeps (planGone_keeps h rfl) h

theorem haltList_keeps (h : Keeps s t) : Keeps s (haltList t) := h.of_view rfl

/-- The part of a HALT before any event or completion (R8, R38). -/
def haltQuiet (s : State) : State := withdrawGain (haltCapture (haltList (setPart .halting s)))

theorem haltQuiet_keeps : Keeps (setPart .halting s) (haltQuiet s) :=
  (haltCapture_keeps (haltList_keeps (.refl _))).of_view (withdrawGain_view (haltCapture _))

theorem haltOp_steps (hp : s.part = .running) : Steps s (haltOp s) := by
  have h1 := lampEnterState_keeps (haltQuiet_keeps (s := s))
  have h2 := haltBus_keeps h1
  have h0 := setPart_halting_steps hp
  have h3 : (haltBus (lampEnterState (haltQuiet s))).part ≠ .faulted →
      Steps s (haltStill (haltBus (lampEnterState (haltQuiet s)))) := fun hf =>
    ⟨abortOrders_moves (fun hb => ((h0.keeps h2).bounded hb).2.2.1) (h0.keeps h2).toMoves, fun _ =>
      abortOrders_held id (h2.part.ne_running nofun) hf⟩
  unfold haltOp
  exact onward_steps (h0.keeps h1) (onward_steps_of_ne (h0.keeps h2) fun hf => onward_steps (h3 hf)
    (onward_steps ((h3 hf).keeps (haltLink_keeps (.refl _)))
      ((h3 hf).keeps (settleHalt_keeps (haltLink_keeps (.refl _))))))

end Sys2Proof.Proofs

namespace Sys2Proof.Proofs

open Sys2Proof.Machine Sys2Proof.Safety Sys2Proof.Laws

variable {s t u : State}

/-! ### The joining of a queue -/

/-- A request taken into hand finds room in its unit (R16). -/
theorem takeSlot_steps {r : Request} (h : Keeps s t) (hp : t.part = .running) (hr : unitRoom r.kind t = true) :
    Steps s (takeSlot r t) := by
  have h' := portWrite_keeps (a := r.slot) (bs := [2]) h
  refine onward_steps_of_ne h'.toSteps fun hf => ?_
  obtain ⟨m, hm | hm, -⟩ := portWrite_cases r.slot [2] t
  · rw [hm] at h' ⊢
    have hand : Steps s { t with mem := m, list := { t.list with handed := some r } } :=
      { wf := h'.wf, loading := h'.loading, cfg := h'.cfg, silent := h'.silent, boost := h'.boostFrameHeld
        bounded := fun hb => by
          obtain ⟨b1, b2, b3, b4, b5, -⟩ := h'.bounded hb
          exact ⟨b1, b2, b3, b4, b5, hr⟩ }
    exact hand.keeps (advanceCursor_keeps (.refl _))
  · rw [hm, enterFaulted_part, if_neg (by simp [hp])] at hf
    exact absurd rfl hf

theorem readRequest_steps (h : Keeps s t) (hp : t.part = .running) : Steps s (readRequest t) := by
  simp only [readRequest]
  split
  · split
    · split
      · rename_i hr; exact takeSlot_steps h hp hr
      · exact (endScan_keeps h).toSteps
    · exact (enterFaulted_keeps h).toSteps
  · exact (enterFaulted_keeps h).toSteps

theorem scanSlotOp_steps (h : Keeps s t) (hp : t.part = .running) : Steps s (scanSlotOp t) := by
  simp only [scanSlotOp]
  split
  · exact (enterFaulted_keeps h).toSteps
  · exact ite_steps (endScan_keeps h).toSteps (ite_steps (readRequest_steps h hp)
      (ite_steps (endScan_keeps h).toSteps (listFault_keeps h).toSteps))

theorem handOver_steps {isKind : Nat → Bool} {f : Request → State → State}
    (hf : ∀ r, s.list.handed = some r → isKind r.kind = true → Steps s (f r (released s))) :
    Steps s (handOver isKind f s) := by
  unfold handOver
  split
  · exact (Keeps.refl s).toSteps
  · rename_i r hr
    split
    · rename_i hk
      exact (hf r hr hk).keeps (finishHand_keeps (.refl _))
    · exact (Keeps.refl s).toSteps

/-- The room that a request in hand keeps (R16). -/
theorem room_of_handed {r : Request} (hb : QueuesBounded s) (hr : s.list.handed = some r) : unitRoom r.kind s = true := by
  have h := hb.2.2.2.2.2
  simpa only [HandedHasRoom, hr] using h

theorem unitRoom_busTransfer (s : State) : unitRoom kBusTransfer s = decide (s.bus.queue.length < 4) := rfl

theorem unitRoom_uplinkSend (s : State) : unitRoom kUplinkSend s = decide (hostPlaces s.link < 3) := rfl

theorem busTransferOp_steps {r : Request} (hr : s.list.handed = some r) (hk : r.kind = kBusTransfer) :
    Steps s (busTransferOp r (released s)) := by
  have h := released_keeps (.refl s)
  refine ite_steps (badArgument_keeps h).toSteps (ite_steps (complete_keeps h).toSteps ?_)
  refine Steps.keeps ?_ (busServe_keeps (.refl _))
  exact {
    wf := h.wf, loading := h.loading, cfg := h.cfg, silent := h.silent, boost := h.boostFrameHeld
    bounded := fun hb => by
      have hroom := room_of_handed hb hr
      rw [hk, unitRoom_busTransfer, decide_eq_true_eq] at hroom
      obtain ⟨b1, -, b3, b4, b5, -⟩ := hb
      refine ⟨b1, ?_, b3, b4, b5, trivial⟩
      simp only [released_bus, List.length_append, List.length_singleton]
      omega }

theorem uplinkSendOp_steps {r : Request} (hr : s.list.handed = some r) (hk : r.kind = kUplinkSend) :
    Steps s (uplinkSendOp r (released s)) := by
  have h := released_keeps (.refl s)
  refine ite_steps (badArgument_keeps h).toSteps (ite_steps (complete_keeps h).toSteps ?_)
  exact {
    wf := h.wf, loading := h.loading, cfg := h.cfg, silent := h.silent, boost := h.boostFrameHeld
    bounded := fun hb => by
      have hroom := room_of_handed hb hr
      rw [hk, unitRoom_uplinkSend, decide_eq_true_eq, hostPlaces] at hroom
      obtain ⟨b1, b2, b3, -, b5, -⟩ := hb
      refine ⟨b1, b2, b3, ?_, b5, trivial⟩
      simp only [hostPlaces, released_link, List.filter_append, List.length_append, List.filter_singleton]
      simp
      omega }

/-! ### START, the configuration load and the entry to RUNNING -/

/-- The invariants of a step. -/
structure Sound (s t : State) : Prop where
  wf : Memory.wf s.mem = true → Memory.wf t.mem = true
  loading : LoadingMatchesPart s → LoadingMatchesPart t
  bounded : QueuesBounded s → QueuesBounded t
  boost : BoostFrameHeld s → BoostFrameHeld t

theorem Steps.sound (h : Steps s t) : Sound s t := ⟨h.wf, h.loading, h.bounded, h.boost⟩

/-- The lamps at entry to OFF and LOADING go dark, and no event arises (R83, R91). -/
theorem lampEnterState_unlit (h : s.part = .off ∨ s.part = .loading) : lampEnterState s =
    { s with lamp := { s.lamp with
        channels := s.lamp.channels.map fun c => { c with applied := 0 }
        boost := false, strobe := false, cap := 0, lApp := 0, total := 0, clamp := false } } := by
  have hl : s.part.lit = false := by obtain h | h := h <;> rw [h] <;> rfl
  simp only [lampEnterState, lampEnter, lampUpdate_unlit h, lampDo, emitAll, hl, Bool.and_false]

/-- LOADING as entered by a START (R5, R91). -/
theorem enterLoading_eq (origin : StartOrigin) (s : State) : enterLoading origin s =
    { quietBlocks (setPart .loading s) with
      loading := some { origin := origin, preparing := false, listChanged := false, ringChanged := false }
      lamp := { s.lamp with
        channels := s.lamp.channels.map fun c => { c with applied := 0 }
        boost := false, strobe := false, cap := 0, lApp := 0, total := 0, clamp := false } } := by
  rw [enterLoading, lampEnterState_unlit (.inr rfl)]
  rfl

theorem hostPlaces_linkInactive (l : Link) : hostPlaces (linkInactive l) = hostPlaces l := by
  simp [hostPlaces, linkInactive, List.filter_filter]

theorem enterLoading_sound (origin : StartOrigin) (s : State) : Sound s (enterLoading origin s) := by
  rw [enterLoading_eq]
  exact {
    wf := id
    loading := fun _ => rfl
    bounded := bounded_of_le (places := (hostPlaces_linkInactive s.link).le)
    boost := fun h p hp hb => (h p hp hb).imp id fun ho => ⟨ho.1, nofun⟩ }

theorem startOp_cases (s : State) :
    startOp s = s ∨ (s.part = .off ∨ s.part = .halted) ∧ ∃ o, startOp s = enterLoading o s := by
  unfold startOp
  cases hp : s.part with
  | off => exact .inr ⟨.inl rfl, _, rfl⟩
  | halted => exact .inr ⟨.inr rfl, _, rfl⟩
  | loading | running | halting | faulted => exact .inl rfl

theorem parseCfg_poll_length (r : List Byte) : (parseCfg r).poll.length = 8 := rfl

theorem takeConfig_sound (l : Loading) (r : List Byte) (hl : s.loading = some l) :
    Sound s (takeConfig l (parseCfg r) s) where
  wf := id
  loading h := by rw [LoadingMatchesPart, hl] at h; exact h
  bounded h := by
    obtain ⟨-, -, b3, -, b5, b6⟩ := h
    refine ⟨rfl, Nat.zero_le _, b3, Nat.zero_le _, b5, ?_⟩
    unfold HandedHasRoom at b6 ⊢
    split
    · trivial
    · simp [unitRoom, takeConfig, busTakeConfig, linkTakeConfig, hostPlaces]
  boost := id

/-- With a load under way the part is neither in OFF nor in FAULTED. -/
theorem not_silent {l : Loading} (hl : s.loading = some l) (h : LoadingMatchesPart s) :
    ¬ (s.part = .off ∨ s.part = .faulted) := by
  rw [LoadingMatchesPart, hl] at h
  have hp : s.part = .loading := by simpa using h.symm
  rw [hp]
  decide

theorem returnFromLoading_steps {origin : StartOrigin} {l : Loading} (hl : s.loading = some l) (h : Keeps s t) :
    Steps s (returnFromLoading origin t) := by
  have left : Steps s { setPart origin.part t with loading := none } := {
    wf := h.wf, bounded := fun hb => bounded_of_le (h := h.bounded hb), cfg := h.cfg
    loading := fun _ => by cases origin <;> rfl
    silent := fun hm hs => absurd hs (not_silent hl hm)
    boost := fun hs p hp hb => (h.boostFrameHeld hs p hp hb).imp id fun ho => ⟨ho.1, by cases origin <;> nofun⟩ }
  unfold returnFromLoading
  refine left.keeps (lampEnterState_keeps ?_)
  cases origin with
  | off => exact .refl _
  | halted => exact (Keeps.refl _).of_view rfl

theorem writeStatus_keeps {base : Nat} {part : PartState} (h : Keeps s t) : Keeps s (writeStatus base part t) :=
  portWrite_keeps h

theorem refuseStart_steps {origin : StartOrigin} {l : Loading} {k : Check} (hl : s.loading = some l) (h : Keeps s t) :
    Steps s (refuseStart origin k t) := by
  have h1 : Keeps s (writeStatus t.workBase.toNat origin.part { t with refusalCode := k.code, refusalOffset := k.offset }) :=
    writeStatus_keeps (h.of_view rfl)
  have h2 := returnFromLoading_steps (origin := origin) hl h1
  exact onward_steps h1.toSteps (onward_steps h2 (h2.keeps ((Keeps.refl _).of_view rfl)))

theorem writeLaps_keeps : ∀ {is : List Nat} {t : State}, Keeps s t → Keeps s (writeLaps is t)
  | [], _, h => h
  | _ :: _, _, h => onward_keeps (portWrite_keeps h) writeLaps_keeps

theorem writeVoids_keeps {bytes : List Byte} : ∀ {ks : List Nat} {t : State}, Keeps s t → Keeps s (writeVoids bytes ks t)
  | [], _, h => h
  | _ :: _, _, h => onward_keeps (portWrite_keeps h) writeVoids_keeps

theorem prepareRing_keeps {changed : Bool} (h : Keeps s t) : Keeps s (prepareRing changed t) :=
  writeVoids_keeps (h.of_view rfl)

/-- With a load under way the cursors may move. -/
theorem list_keeps {l : Loading} {x : ListEngine} (hl : s.loading = some l) (h : Keeps s t)
    (hx : x.handed = t.list.handed) : Keeps s { t with list := x } :=
  { h with
    wf := h.wf, loading := h.loading, bounded := fun hb => bounded_of_le (handed := .inl hx) (h := h.bounded hb)
    cfg := h.cfg, silent := fun hm hs => absurd hs (not_silent hl hm) }

theorem prepareLists_keeps {l : Loading} (hl : s.loading = some l) (h : Keeps s t) : Keeps s (prepareLists t) := by
  unfold prepareLists
  exact onward_keeps (writeLaps_keeps h) fun h => onward_keeps (portWrite_keeps (list_keeps hl h rfl)) fun h =>
    list_keeps hl h rfl

/-- The entry to RUNNING up to the first plan (R7, R14, R41, R43, R126). -/
def enterRunningPlan (s : State) : State :=
  let s := { setPart .running s with loading := none }
  let s := startPollTimer (startOutputTimer s)
  fixPlan { s with
    link := { s.link with silence := some (s.now + s.cfg.silenceMs * 1000) }
    playout := playoutEnterRunning s.capture.seq s.playout
    capture := { s.capture with selPtr := none } }

theorem enterRunning_eq (s : State) : enterRunning s =
    let u := enterRunningPlan s
    onward (lampDo (lampEnterRunning u.cfg (planLevel u) u.lamp) u) fun s =>
      onward (busServe (handGainAtEntry s)) awaitDue := rfl

theorem enterRunning_steps {l : Loading} (hl : s.loading = some l) (h : Keeps s t) : Steps s (enterRunning t) := by
  have planned : Steps s (enterRunningPlan t) := {
    toMoves := fixPlan_moves {
      wf := h.wf, bounded := fun hb => bounded_of_le (h := h.bounded hb), cfg := h.cfg, loading := fun _ => rfl
      silent := fun hm hs => absurd hs (not_silent hl hm) }
    boost := fun _ => fixPlan_held _ }
  rw [enterRunning_eq]
  refine planned.keeps (onward_keeps (lampDo_keeps (.refl _)) fun h => onward_keeps (busServe_keeps ?_) awaitDue_keeps)
  exact h.of_view rfl

theorem regionPreparationOp_steps {l : Loading} (hl : s.loading = some l) (h : Keeps s t) :
    Steps s (regionPreparationOp l t) := by
  have h1 : Keeps s (if l.listChanged = true then prepareLists t else t) := ite_keeps (prepareLists_keeps hl h) h
  have h2 := prepareRing_keeps (changed := l.ringChanged) h1
  have h3 := fun base part => writeStatus_keeps (base := base) (part := part) h2
  exact onward_steps h1.toSteps (onward_steps h2.toSteps (onward_steps (h3 _ _).toSteps (enterRunning_steps hl (h3 _ _))))

/-! ### The resets -/

theorem powerOnResetOp_sound (s : State) : Sound s (powerOnResetOp s) where
  wf := id
  loading _ := rfl
  bounded _ := ⟨rfl, Nat.zero_le _, Nat.zero_le _, Nat.zero_le _, Nat.zero_le _, trivial⟩
  boost _ _ hp := nomatch hp

theorem softResetOp_sound (s : State) : Sound s (softResetOp s) where
  wf := id
  loading _ := rfl
  bounded _ := ⟨rfl, Nat.zero_le _, Nat.zero_le _, Nat.zero_le _, Nat.zero_le _, trivial⟩
  boost _ _ hp := nomatch hp

/-! ## What a command can do -/

/-- What a command does to what the step invariants look at: what `Steps` allows, or it is a START that is taken, the
taking of a configuration, or a reset. -/
inductive Effect (s : State) : State → Prop
  | steps {t : State} (h : Steps s t) : Effect s t
  | start (origin : StartOrigin) (h : s.part = .off ∨ s.part = .halted) : Effect s (enterLoading origin s)
  | load (l : Loading) (m : Nat) (r : List Byte) (h : s.loading = some l) :
      Effect s (takeConfig l (parseCfg r) (advance m s))
  | powerOn : Effect s (powerOnResetOp s)
  | soft : Effect s (softResetOp s)

/-- A command answers a next state, in which it has had its effect. -/
def Answers (s : State) (o : Host.Outcome State Fault Refusal) : Prop := ∃ t, o = .next t ∧ Effect s t

theorem Keeps.answers (h : Keeps s t) : Answers s (.next t) := ⟨t, rfl, .steps h.toSteps⟩

theorem Steps.answers (h : Steps s t) : Answers s (.next t) := ⟨t, rfl, .steps h⟩

theorem advance_keeps {m : Nat} (h : Keeps s t) : Keeps s (advance m t) := h.of_view rfl

theorem handOverKind_answers {kind : Nat} {f : Request → State → State}
    (hf : ∀ (r : Request) (u : State), Keeps s u → Keeps s (f r u)) : Answers s (.next (handOverKind kind f s)) :=
  (handOver_keeps hf (.refl s)).answers

theorem receive_answers {isIt : LinkMsg → Bool} {moment : Nat} {bytes : List Byte} :
    Answers s (.next (receive isIt moment bytes s)) := (receive_keeps (.refl s)).answers

theorem startOp_answers : Answers s (.next (startOp s)) := by
  obtain h | ⟨hp, o, h⟩ := startOp_cases s
  · rw [h]; exact (Keeps.refl s).answers
  · rw [h]; exact ⟨_, rfl, .start o hp⟩

theorem halt_steps : Steps s (if s.part = .running then haltOp s else s) := by
  split
  · rename_i hp; exact haltOp_steps hp
  · exact (Keeps.refl s).toSteps

theorem listResyncOp_keeps : Keeps s (listResyncOp s) :=
  ite_keeps (ite_keeps ((Keeps.refl s).of_view rfl) (resyncNow_keeps (.refl s))) (.refl s)

theorem writeWorkBase_keeps {v : Word} : Keeps s (writeWorkBase v s) := ite_keeps ((Keeps.refl s).of_view rfl) (.refl s)

theorem clearAttention_keeps {v : Word} : Keeps s (clearAttention v s) := (Keeps.refl s).of_view rfl

theorem writeMask_keeps {v : Word} : Keeps s (writeMask v s) := (Keeps.refl s).of_view rfl

theorem writeControl_answers {v : Word} : Answers s (.next (writeControl v s)) := by
  unfold writeControl
  split
  · exact startOp_answers
  · exact halt_steps.answers
  · exact ⟨_, rfl, .soft⟩
  · exact listResyncOp_keeps.answers
  · exact (Keeps.refl s).answers

theorem writeRegister_answers {offset : Nat} {v : Word} : Answers s (.next (writeRegister offset v s)) := by
  unfold writeRegister
  split
  · exact writeWorkBase_keeps.answers
  · exact writeControl_answers
  · exact clearAttention_keeps.answers
  · exact writeMask_keeps.answers
  · exact (Keeps.refl s).answers

theorem configurationLoad_answers {m : Nat} : Answers s (execConfigurationLoad m s) := by
  unfold execConfigurationLoad
  split
  · exact (Keeps.refl s).answers
  · rename_i l hl
    split
    · exact (Keeps.refl s).answers
    · unfold configurationLoadOp
      split
      · exact (enterFaulted_keeps (advance_keeps (.refl s))).answers
      · split
        · exact (refuseStart_steps hl (advance_keeps (.refl s))).answers
        · exact ⟨_, rfl, .load l m _ hl⟩

theorem regionPreparation_answers {m : Nat} : Answers s (execRegionPreparation m s) := by
  unfold execRegionPreparation
  split
  · exact (Keeps.refl s).answers
  · rename_i l hl
    exact (ite_steps (regionPreparationOp_steps hl (advance_keeps (.refl s))) (Keeps.refl s).toSteps).answers

theorem scanSlot_answers {m : Nat} : Answers s (execScanSlot m s) := by
  refine Steps.answers (s := s) ?_
  split
  · rename_i h
    simp only [scanReady, Bool.and_eq_true, beq_iff_eq] at h
    exact scanSlotOp_steps (advance_keeps (.refl s)) h.1.1
  · exact (Keeps.refl s).toSteps

/-- The end of a frame that is in READOUT, taken in a state whose time alone has moved. -/
theorem abandon_answers {m : Nat} {f : Frame} {b : Bool} {c : Prop} [Decidable c]
    (hf : frameInReadout (advance m s) = some (f, b)) (hu : Keeps s u) :
    Answers s (.next (if c then abandonFrame f b (advance m s) else u)) := by
  obtain ⟨p, hp, rfl⟩ := frameInReadout_plan hf
  exact Steps.answers (ite_steps (abandonFrame_steps hp (advance_keeps (.refl s))) hu.toSteps)

theorem frameValidFall_answers {m : Nat} : Answers s (execFrameValidFall m s) := by
  simp only [execFrameValidFall]
  split
  · exact (advance_keeps (.refl s)).answers
  · rename_i hf; exact abandon_answers hf (advance_keeps (.refl s))

theorem captureDeadlineExpiry_answers : Answers s (execCaptureDeadlineExpiry s) := by
  unfold execCaptureDeadlineExpiry
  split
  · rename_i d _ _ _ hf; exact abandon_answers (m := d) hf (.refl s)
  · exact (Keeps.refl s).answers

theorem sensorLos_answers {m : Nat} : Answers s (execSensorLos m s) := by
  simp only [execSensorLos]
  split
  · exact (advance_keeps (.refl s)).answers
  · rename_i hf; exact abandon_answers hf (advance_keeps (.refl s))

theorem pixelLine_answers {m : Nat} {bytes : List Byte} : Answers s (execPixelLine m bytes s) :=
  ((advance_keeps (.refl s)).toSteps.trans pixelLineOp_steps).answers

theorem frameComplete_answers {m : Nat} : Answers s (execFrameComplete m s) :=
  ((advance_keeps (.refl s)).toSteps.trans frameCompleteOp_steps).answers

theorem busTransfer_answers : Answers s (execBusTransfer s) :=
  (handOver_steps fun _ hr hk => busTransferOp_steps hr (by simpa using hk)).answers

theorem uplinkSend_answers : Answers s (execUplinkSend s) :=
  (handOver_steps fun _ hr hk => uplinkSendOp_steps hr (by simpa using hk)).answers

theorem outputFrameStart_answers {order : List FrameBlock} : Answers s (execOutputFrameStart order s) := by
  unfold execOutputFrameStart
  split
  · exact (Keeps.refl s).answers
  · exact Keeps.answers (frameStart_keeps (.refl s))

theorem listPollTimerExpiry_answers : Answers s (execListPollTimerExpiry s) := by
  unfold execListPollTimerExpiry
  split
  · exact (Keeps.refl s).answers
  · exact Keeps.answers (scanEvent_keeps ((Keeps.refl s).of_view rfl))

theorem captureDue_answers : Answers s (execCaptureDue s) := by
  unfold execCaptureDue
  split
  · exact (Keeps.refl s).answers
  · exact Keeps.answers (ite_keeps (captureSelect_keeps (advance_keeps (.refl s))) (.refl s))

theorem triggerEnd_answers : Answers s (execTriggerEnd s) := by
  unfold execTriggerEnd
  split
  · exact (Keeps.refl s).answers
  · exact Keeps.answers (ite_keeps (triggerEndOp_keeps (advance_keeps (.refl s))) (.refl s))

theorem frameValidRise_answers : Answers s (execFrameValidRise s) := by
  unfold execFrameValidRise
  split
  · exact (Keeps.refl s).answers
  · exact Keeps.answers ((Keeps.refl s).of_view rfl)

theorem messageDiscarded_answers {bytes : List Byte} : Answers s (execMessageDiscarded bytes s) := by
  simp only [execMessageDiscarded]
  split
  · exact Keeps.answers (ite_keeps ((Keeps.refl s).of_view rfl) (.refl s))
  · exact (Keeps.refl s).answers

theorem linkLost_answers : Answers s (execLinkLost s) := by
  unfold execLinkLost
  split
  · exact (Keeps.refl s).answers
  · exact Keeps.answers (ite_keeps (linkLossNotice_keeps (emit_keeps ((Keeps.refl s).of_view rfl))) (.refl s))

theorem uplinkSendEnd_answers : Answers s (execUplinkSendEnd s) := by
  unfold execUplinkSendEnd
  split
  · exact (Keeps.refl s).answers
  · exact (transmitEnd_keeps (.refl s)).answers

theorem busForeignStop_answers : Answers s (execBusForeignStop s) := by
  refine Keeps.answers ((Keeps.refl s).of_view ?_)
  simp only [view]
  split <;> rfl

theorem busBusyTimeout_answers {stop : Bool} : Answers s (execBusBusyTimeout s stop) := by
  unfold execBusBusyTimeout
  split
  · exact (Keeps.refl s).answers
  · exact Keeps.answers (ite_keeps (txnEndServe_keeps ((Keeps.refl s).of_view rfl)) (.refl s))

theorem busTransactionEnd_answers {m acked : Nat} {o : BusEnd} {read : List Byte} :
    Answers s (execBusTransactionEnd m o acked read s) := by
  unfold execBusTransactionEnd
  split
  · exact (Keeps.refl s).answers
  · exact Keeps.answers (ite_keeps (txnEndServe_keeps (advance_keeps (.refl s))) (.refl s))

theorem pollFailing_answers {m : Nat} {o : BusOutcome} : Answers s (execPollFailing m o s) := by
  unfold execPollFailing
  split
  · exact (Keeps.refl s).answers
  · split
    · exact Keeps.answers (ite_keeps (failInHand_keeps (advance_keeps (.refl s))) (.refl s))
    · exact (Keeps.refl s).answers
    · exact (Keeps.refl s).answers

theorem gainWriteFailed_answers {m : Nat} {o : BusOutcome} : Answers s (execGainWriteFailed m o s) := by
  unfold execGainWriteFailed
  split
  · exact (Keeps.refl s).answers
  · split
    · exact Keeps.answers (ite_keeps (failInHand_keeps (advance_keeps (.refl s))) (.refl s))
    · exact (Keeps.refl s).answers
    · exact (Keeps.refl s).answers

theorem pollDue_answers {m j : Nat} : Answers s (execPollDue m j s) :=
  Keeps.answers (ite_keeps (busServe_keeps (advance_keeps ((Keeps.refl s).of_view (by simp [view, updateAt])))) (.refl s))

theorem recoveryEnd_answers {m : Nat} {reads : List Bool} {clk dat : Bool} :
    Answers s (execRecoveryEnd m reads clk dat s) := by
  unfold execRecoveryEnd
  split
  · exact (Keeps.refl s).answers
  · exact Keeps.answers (ite_keeps (endRecovery_keeps (advance_keeps (.refl s))) (.refl s))

theorem stillCopyEnd_answers {m : Nat} : Answers s (execStillCopyEnd m s) := by
  unfold execStillCopyEnd
  split
  · exact (Keeps.refl s).answers
  · exact (finishCopy_keeps (advance_keeps (.refl s))).answers

theorem memoryError_answers {m : Nat} : Answers s (execMemoryError m s) :=
  Keeps.answers (ite_keeps (.refl s) (enterFaulted_keeps (advance_keeps (.refl s))))

theorem messageDropped_answers {bytes : List Byte} {b : Bool} : Answers s (execMessageDropped bytes b s) :=
  Keeps.answers (ite_keeps ((Keeps.refl s).of_view rfl) (.refl s))

/-- Every command answers a next state, and its effect is one of those `Effect` lists. -/
theorem exec_answers (c : Instr) (s : State) : Answers s (exec c s) := by
  cases c with
  | start => exact startOp_answers
  | halt => exact halt_steps.answers
  | softReset => exact ⟨_, rfl, .soft⟩
  | listResync => exact listResyncOp_keeps.answers
  | workBaseWrite => exact writeWorkBase_keeps.answers
  | attentionWrite => exact clearAttention_keeps.answers
  | attentionMaskWrite => exact writeMask_keeps.answers
  | registerWrite => exact writeRegister_answers
  | powerOnReset => exact ⟨_, rfl, .powerOn⟩
  | configurationLoad => exact configurationLoad_answers
  | regionPreparation => exact regionPreparation_answers
  | memoryError => exact memoryError_answers
  | outputFrameStart => exact outputFrameStart_answers
  | listPollTimerExpiry => exact listPollTimerExpiry_answers
  | scanSlot => exact scanSlot_answers
  | badKind => exact (handOver_keeps (fun _ _ h => complete_keeps h) (.refl s)).answers
  | lampSet => exact handOverKind_answers fun _ _ => lampSetOp_keeps
  | exposureSet => exact handOverKind_answers fun _ _ => exposureSetOp_keeps
  | chainageRun => exact handOverKind_answers fun _ _ => chainageRunOp_keeps
  | chainageCalibrate => exact handOverKind_answers fun _ _ => chainageCalibrateOp_keeps
  | markSet => exact handOverKind_answers fun _ _ => markSetOp_keeps
  | driveHold => exact handOverKind_answers fun _ _ => driveHoldOp_keeps
  | frameHold => exact handOverKind_answers fun _ _ => frameHoldOp_keeps
  | frameRelease => exact handOverKind_answers fun _ _ => frameReleaseOp_keeps
  | snapshot => exact handOverKind_answers fun _ _ => snapshotOp_keeps
  | overlayWrite => exact handOverKind_answers fun _ _ => appendEdit_keeps
  | overlayStyle => exact handOverKind_answers fun _ _ => appendEdit_keeps
  | fontLoad => exact handOverKind_answers fun _ _ => appendEdit_keeps
  | busTransfer => exact busTransfer_answers
  | pollSet => exact handOverKind_answers fun _ _ => pollSetOp_keeps
  | busReset => exact handOverKind_answers fun _ _ => busResetOp_keeps
  | uplinkSend => exact uplinkSend_answers
  | latchClear => exact handOverKind_answers fun _ _ => latchClearOp_keeps
  | captureStall => exact Keeps.answers (ite_keeps (underrun_keeps (.refl s)) (.refl s))
  | captureDue => exact captureDue_answers
  | triggerEnd => exact triggerEnd_answers
  | frameValidRise => exact frameValidRise_answers
  | pixelLine => exact pixelLine_answers
  | frameValidFall => exact frameValidFall_answers
  | frameComplete => exact frameComplete_answers
  | captureDeadlineExpiry => exact captureDeadlineExpiry_answers
  | sensorLos => exact sensorLos_answers
  | tempStale => exact Keeps.answers (ite_keeps (lampDo_keeps (.refl s)) (.refl s))
  | gainWriteFailed => exact gainWriteFailed_answers
  | reel | chainageResync | powerGrant | operatorText | keepalive | surfaceMessage | haltDrive | releaseDrive =>
    exact receive_answers
  | messageDropped => exact messageDropped_answers
  | messageDiscarded => exact messageDiscarded_answers
  | rxGapTimeout => exact Keeps.answers (ite_keeps ((Keeps.refl s).of_view rfl) (.refl s))
  | linkLost => exact linkLost_answers
  | headStatus => exact Keeps.answers (ite_keeps (buildHeadStatus_keeps (.refl s)) (.refl s))
  | uplinkTransmitStart => exact Keeps.answers (ite_keeps (transmitStart_keeps (.refl s)) (.refl s))
  | uplinkSendEnd => exact uplinkSendEnd_answers
  | busForeignStart => exact Keeps.answers ((Keeps.refl s).of_view rfl)
  | busForeignStop => exact busForeignStop_answers
  | busBusyTimeout => exact busBusyTimeout_answers
  | arbitrationLost => exact Keeps.answers (ite_keeps (loseArbitration_keeps (advance_keeps (.refl s))) (.refl s))
  | busStuck => exact Keeps.answers (ite_keeps (txnEndServe_keeps (advance_keeps (.refl s))) (.refl s))
  | busTransactionEnd => exact busTransactionEnd_answers
  | pollFailing => exact pollFailing_answers
  | pollDue => exact pollDue_answers
  | recoveryEnd => exact recoveryEnd_answers
  | stillCopyEnd => exact stillCopyEnd_answers
  | startByte => exact Keeps.answers (ite_keeps ((Keeps.refl s).of_view rfl) (.refl s))

/-- A step takes a command from the queue, or none, and has the effect of it. -/
theorem step_effect (h : step s = .next t) : ∃ rest, Effect { s with pending := rest } t := by
  unfold step at h
  split at h
  · cases h
    exact ⟨s.pending, .steps (stillTick_keeps (.refl s)).toSteps⟩
  · rename_i c rest _
    obtain ⟨u, hu, he⟩ := exec_answers c { s with pending := rest }
    rw [hu] at h
    cases h
    exact ⟨rest, he⟩

theorem Effect.sound (h : Effect s t) : Sound s t := by
  cases h with
  | steps h => exact h.sound
  | start o => exact enterLoading_sound o s
  | load l m r hl =>
    have h := takeConfig_sound l r (s := advance m s) hl
    exact ⟨h.wf, h.loading, h.bounded, h.boost⟩
  | powerOn => exact powerOnResetOp_sound s
  | soft => exact softResetOp_sound s

/-- Settles O56: every effect of a step is sound. -/
theorem stepKeepsMemoryAndLoading : Obligations.StepKeepsMemoryAndLoading := by
  intro s t h
  obtain ⟨rest, he⟩ := step_effect h
  exact ⟨he.sound.wf, he.sound.loading, he.sound.boost⟩

/-- Settles O59: every effect of a step is sound. -/
theorem stepKeepsQueueBounds : Obligations.StepKeepsQueueBounds := by
  intro s t hb h
  obtain ⟨rest, he⟩ := step_effect h
  exact he.sound.bounded hb

/-- In FAULTED an effect leaves the part state and the event cursor, but for a reset; in OFF and FAULTED it leaves memory;
and it leaves the configuration, but for a load in LOADING and a reset. -/
theorem Effect.silent (hl : LoadingMatchesPart s) (h : Effect s t) :
    ((s.part = .off ∨ s.part = .faulted) → t.mem = s.mem)
      ∧ (s.part = .faulted → (t.part = .faulted ∧ t.list.evIndex = s.list.evIndex ∧ t.list.evLap = s.list.evLap)
          ∨ t.part = .off)
      ∧ (t.cfg = s.cfg ∨ (s.part = .loading ∧ t.part = .loading) ∨ t = { State.reset with
          pending := t.pending, now := t.now, mem := s.mem, errors := s.errors, chainage := t.chainage
          overlay := t.overlay }) := by
  cases h with
  | steps h =>
    refine ⟨fun hs => (h.silent hl hs).2.1, fun hs => .inl ?_, .inl h.cfg⟩
    obtain ⟨hp, -, hi, hv⟩ := h.silent hl (.inr hs)
    exact ⟨hp.trans hs, hi, hv⟩
  | start o hs =>
    rw [enterLoading_eq]
    exact ⟨fun _ => rfl, fun hf => by rw [hf] at hs; simp at hs, .inl rfl⟩
  | load l m r hs =>
    have hp : s.part = .loading := by
      rw [LoadingMatchesPart, hs] at hl
      simpa using hl.symm
    exact ⟨fun _ => rfl, fun hf => absurd (.inr hf) (not_silent hs hl), .inr (.inl ⟨hp, hp⟩)⟩
  | powerOn => exact ⟨fun _ => rfl, fun _ => .inr rfl, .inr (.inr rfl)⟩
  | soft => exact ⟨fun _ => rfl, fun _ => .inr rfl, .inr (.inr rfl)⟩

/-- Settles O60, from the effects a step can have. -/
theorem offAndFaultedAreSilent : Obligations.OffAndFaultedAreSilent := by
  intro s t hl h
  obtain ⟨rest, he⟩ := step_effect h
  exact he.silent (s := { s with pending := rest }) hl

end Sys2Proof.Proofs

namespace Sys2Proof.Proofs

open Sys2Proof.Machine Sys2Proof.Safety Sys2Proof.Laws

/-! ## Reset -/

/-- Settles O2: every value is read off the state after reset. -/
theorem resetLeavesSpecValues : Obligations.ResetLeavesSpecValues := by
  have hr : ∀ {α : Type} {x : α} {n : Nat} {p : α → Prop}, p x → ∀ y ∈ List.replicate n x, p y :=
    fun h y hy => (List.eq_of_mem_replicate hy) ▸ h
  refine ⟨?_, ?_, ?_, ?_, ?_, ?_, ?_, ?_, ?_, ?_, ?_, rfl, rfl⟩
  · exact ⟨rfl, rfl, rfl, rfl, rfl⟩
  · exact ⟨rfl, rfl, rfl, rfl, rfl, rfl, rfl, rfl⟩
  · exact ⟨rfl, rfl, rfl, rfl, rfl, rfl, rfl, rfl, rfl, rfl, rfl⟩
  · exact hr ⟨rfl, rfl, rfl, rfl, rfl⟩
  · exact ⟨rfl, rfl, rfl, rfl, rfl, rfl, rfl, rfl, rfl⟩
  · exact ⟨List.length_replicate, hr rfl, rfl, rfl, rfl, rfl, rfl, rfl, rfl, rfl, rfl⟩
  · exact ⟨rfl, hr ⟨rfl, rfl, rfl, rfl, rfl, rfl⟩, rfl, rfl, rfl, rfl, rfl, rfl⟩
  · exact ⟨rfl, rfl, rfl, rfl, rfl, rfl⟩
  · exact ⟨rfl, rfl, rfl, rfl, rfl, rfl, rfl, rfl, rfl, rfl, rfl, rfl, rfl, rfl, rfl, rfl, rfl, rfl⟩
  · exact ⟨rfl, rfl, rfl, rfl, rfl, rfl⟩
  · exact ⟨rfl, rfl, rfl, rfl, rfl, rfl, rfl, rfl, hr ⟨rfl, rfl, rfl, rfl⟩⟩

/-- Settles O10: both resets by their definitions. -/
theorem resetsReturnBlocks : Obligations.ResetsReturnBlocks := fun _ =>
  ⟨rfl, _, rfl, rfl, rfl, rfl, rfl, rfl, rfl, rfl, rfl, rfl, rfl, rfl, rfl, rfl⟩

/-- Settles O55: the lamps are dark, the queues empty and no frame is planned. -/
theorem resetMeetsInvariants : Obligations.ResetMeetsInvariants := by
  refine ⟨reset_mem_wf, rfl, rfl, ?_, ?_, ?_, ?_⟩
  · unfold ChainageInRange
    decide
  · unfold LampWithinLimits
    decide
  · exact ⟨rfl, Nat.zero_le _, Nat.zero_le _, Nat.zero_le _, Nat.zero_le _, trivial⟩
  · exact fun p hp => nomatch hp

/-! ## The registers -/

/-- A bit set in both registers raises the line. -/
theorem attn_iff (s : State) :
    attn s = true ↔ ∃ i < 4, s.attention.getLsbD i = true ∧ s.attentionMask.getLsbD i = true := by
  unfold attn
  rw [bne_iff_ne, ne_eq, ← not_iff_not, not_not]
  constructor
  · rintro h ⟨i, -, ha, hm⟩
    have := congrArg (·.getLsbD i) h
    simp [ha, hm] at this
  · intro h
    refine BitVec.eq_of_getLsbD_eq fun i hi => ?_
    rw [show BitVec.getLsbD (0 : BitVec 4) i = false by simp]
    rw [BitVec.getLsbD_and, Bool.and_eq_false_iff]
    by_contra hn
    rw [not_or, Bool.not_eq_false, Bool.not_eq_false] at hn
    exact h ⟨i, hi, hn⟩

/-- Settles O3, bit by bit. -/
theorem attentionRegistersAndLine : Obligations.AttentionRegistersAndLine := by
  intro v s
  refine ⟨⟨_, rfl, rfl, fun i hi => ?_⟩, ⟨_, rfl, rfl, fun i hi => ?_⟩, attn_iff s, rfl, rfl, rfl, rfl⟩
  · simp [clearAttention, hi]
  · simp [writeMask, hi]

theorem control_bits (v : Word) : (v.setWidth 4).toNat = v.toNat % 16 := by
  simp

/-- The low four bits of a write to CONTROL name its command (R3). -/
theorem writeControl_eq (v : Word) (s : State) : writeControl v s =
    match v.toNat % 16 with
    | 1 => startOp s
    | 2 => if s.part = .running then haltOp s else s
    | 4 => softResetOp s
    | 8 => listResyncOp s
    | _ => s := by
  rw [← control_bits]
  rfl

/-- The part state moves as far as an operation and what follows it take it. -/
theorem onward_part {p : PartState} {s : State} {k : State → State} (h : PartMoves p s.part)
    (hk : PartMoves s.part (k s).part) : PartMoves p (onward s k).part := by
  unfold onward
  split
  · exact h
  · exact h.trans hk

theorem abortOrders_part : ∀ (os : List StillOrder) (s : State), PartMoves s.part (abortOrders os s).part
  | [], _ => .stay _
  | _ :: os, s => onward_part (orderFailed_keeps (.refl { s with still := { s.still with orders := os } })).part
      (abortOrders_part os _)

/-- A HALT goes to HALTING, and from there to HALTED or FAULTED at most (R8). -/
theorem haltOp_part (s : State) : PartMoves .halting (haltOp s).part := by
  have h := lampEnterState_keeps (haltQuiet_keeps (s := s))
  refine onward_part h.part ?_
  refine onward_part (haltBus_keeps (.refl _)).part (onward_part (abortOrders_part _ _) (onward_part ?_ ?_))
  · exact (haltLink_keeps (.refl _)).part
  · exact (settleHalt_keeps (.refl _)).part

theorem enterLoading_part (o : StartOrigin) (s : State) : (enterLoading o s).part = .loading := by
  rw [enterLoading_eq]
  rfl

theorem listResyncOp_ignored {s : State} (h : s.part ≠ .running) (h' : s.part ≠ .halted) : listResyncOp s = s := by
  rw [listResyncOp, if_neg (by simp [h, h'])]

/-- The base keeps its bits above the low twelve (R2). -/
theorem workBase_bits (v : Word) : (v &&& 0xFFFFF000).toNat = v.toNat / 4096 * 4096 := by
  have hm : (0xFFFFF000 : Word) = (BitVec.allOnes 32 >>> 12) <<< 12 := by decide
  have h : v &&& (0xFFFFF000 : Word) = (v >>> 12) <<< 12 := by
    rw [hm]
    refine BitVec.eq_of_getLsbD_eq fun i hi => ?_
    simp only [BitVec.getLsbD_and, BitVec.getLsbD_shiftLeft, BitVec.getLsbD_ushiftRight, BitVec.getLsbD_allOnes, hi]
    by_cases hl : i < 12
    · simp [hl]
    · simp [hl, hi, Nat.add_sub_cancel' (Nat.not_lt.1 hl)]
  rw [h]
  have := v.isLt
  simp only [BitVec.toNat_shiftLeft, BitVec.toNat_ushiftRight, Nat.shiftLeft_eq, Nat.shiftRight_eq_div_pow]
  omega

/-- A register of four bits is read as it stands. -/
theorem read_nibble (x : BitVec 4) : (x.setWidth 32).toNat = x.toNat := by
  rw [BitVec.toNat_setWidth, Nat.mod_eq_of_lt (x.isLt.trans (by decide))]

/-- Settles O4, register by register. -/
theorem registerWriteGivesNamedCommand : Obligations.RegisterWriteGivesNamedCommand := by
  intro v s
  have hc : exec (.registerWrite 0x08 v) s = .next (writeControl v s) := rfl
  refine ⟨⟨_, rfl⟩, fun h => ?_, fun h => ?_, fun h => ?_, fun h => ?_, fun h => ?_, fun h => ?_, fun h => ?_, fun h => ?_,
    fun h => ?_, fun h => ?_, fun h => ?_, ⟨_, rfl, rfl⟩, ?_, rfl, ?_, ?_, rfl, rfl, rfl, rfl, rfl, fun h => ?_,
    fun h h' => ?_⟩
  · rw [hc, writeControl_eq, h]; rfl
  · rw [hc, writeControl_eq, h]; rfl
  · rw [hc, writeControl_eq, h]; rfl
  · rw [hc, writeControl_eq, h]; rfl
  · rw [hc, writeControl_eq]
    simp only [List.mem_cons, List.not_mem_nil, or_false, not_or] at h
    split <;> simp_all
  · cases hp : s.part with
    | loading | running | halting | faulted => show Host.Outcome.next (startOp s) = _; rw [startOp, hp]
    | off | halted => simp [hp] at h
  · refine ⟨_, rfl, ?_⟩
    cases hp : s.part with
    | loading | running | halting | faulted => simp [hp] at h
    | off | halted => rw [startOp, hp]; exact enterLoading_part _ _
  · exact congrArg Host.Outcome.next (if_neg (by rintro hp; simp [hp] at h))
  · refine ⟨_, rfl, ?_⟩
    rw [if_pos h]
    cases hp : (haltOp s).part with
    | halting | halted | faulted => decide
    | off | loading | running => exact absurd (hp ▸ haltOp_part s) nofun
  · exact congrArg Host.Outcome.next (listResyncOp_ignored (by rintro hp; simp [hp] at h) (by rintro hp; simp [hp] at h))
  · refine ⟨_, rfl, ?_⟩
    rw [listResyncOp, if_pos (by simpa using h)]
    split
    · exact .inl rfl
    · exact .inr ⟨rfl, rfl, rfl⟩
  · simp only [readRegister]
    cases s.part <;> cases s.list.listState <;> rfl
  · exact read_nibble _
  · exact read_nibble _
  · refine ⟨_, rfl, ?_⟩
    rw [writeWorkBase, if_pos h]
    exact ⟨rfl, workBase_bits v, rfl⟩
  · exact congrArg Host.Outcome.next (if_neg (by simp [h, h']))

/-! ## START -/

/-- Settles O5: LOADING as `enterLoading_eq` gives it. -/
theorem startEntersLoading : Obligations.StartEntersLoading := by
  intro s hp
  have h : ∃ o : StartOrigin, o.part = s.part ∧ startOp s = enterLoading o s := by
    unfold startOp
    obtain hp | hp := hp <;> rw [hp]
    · exact ⟨.off, rfl, rfl⟩
    · exact ⟨.halted, rfl, rfl⟩
  obtain ⟨o, ho, hs⟩ := h
  refine ⟨enterLoading o s, congrArg Host.Outcome.next hs, ?_⟩
  rw [enterLoading_eq]
  exact ⟨rfl, ⟨_, rfl, rfl, ho⟩, rfl, rfl, rfl⟩

/-! ## Scan events and LIST_RESYNC -/

/-- A scan event changes the scan state alone (R14). -/
theorem scanEvent_eq (s : State) : scanEvent s = { s with list := { s.list with
    scanning := s.list.scanning || (decide (s.part = .running) && decide (s.list.listState = .active)) } } := by
  unfold scanEvent
  split
  · rename_i h; simp [h]
  · rename_i h
    rw [not_and_or] at h
    obtain h | h := h <;> simp [h]

/-- Settles O11. -/
theorem scanEventsAndResync : Obligations.ScanEventsAndResync := by
  intro s
  refine ⟨fun h => ?_, fun e h => ?_, fun hp h => ?_, fun r hp h => ⟨?_, fun hr hk => ?_⟩⟩
  · simp only [exec, execListPollTimerExpiry, h]
  · have hx : exec .listPollTimerExpiry s = .next (scanEvent (let s := advance e s
        { s with list := { s.list with pollTimer := some (e + s.cfg.pollMs * 1000) } })) := by
      simp only [exec, execListPollTimerExpiry, h]
      rfl
    refine ⟨_, hx, ?_, fun hp hl => ?_, fun hn => ?_⟩
    · rw [scanEvent_eq]; rfl
    · rw [scanEvent_eq]; simp [hp, hl]
    · rw [scanEvent_eq]; obtain hn | hn := hn <;> simp [hn]
  · exact congrArg Host.Outcome.next (by rw [listResyncOp, if_pos hp, h]; rfl)
  · exact congrArg Host.Outcome.next (by rw [listResyncOp, if_pos hp, h]; rfl)
  · refine congrArg Host.Outcome.next ?_
    simp only [handOverKind, handOver, h, hk, kOverlayWrite, beq_self_eq_true, if_true, finishHand, appendEdit,
      resyncNow, hr, settleHalt]
    simp

end Sys2Proof.Proofs

namespace Sys2Proof.Proofs

open Sys2Proof.Machine Sys2Proof.Safety Sys2Proof.Laws

/-! ## What acts change

An act writes memory, attention bits and the event cursor, and it reads little else. So it can be moved past any change
of the rest of the state. -/

/-- `v` with what acts can change as `u` has it. -/
def put (u v : State) : State := { v with mem := u.mem, attention := u.attention, list := u.list }

@[simp] theorem put_self (s : State) : put s s = s := rfl
@[simp] theorem put_put (u v w : State) : put (put u v) w = put u w := rfl
@[simp] theorem put_put_right (u v w : State) : put u (put v w) = put u w := rfl
@[simp] theorem put_mem (u v : State) : (put u v).mem = u.mem := rfl
@[simp] theorem put_attention (u v : State) : (put u v).attention = u.attention := rfl
@[simp] theorem put_list (u v : State) : (put u v).list = u.list := rfl

/-- What an event reads besides memory and the list engine is in `v` as in `u`. -/
structure Alike (u v : State) : Prop where
  errors : v.errors = u.errors := by rfl
  areaBase : v.areaBase = u.areaBase := by rfl
  cfg : v.cfg = u.cfg := by rfl
  frames : v.playout.frames = u.playout.frames := by rfl
  x : v.chainage.x = u.chainage.x := by rfl
  working : Working v

/-- The event list has room for one more entry (R168). -/
def eventRoom (s : State) : Bool := decide <|
  usedCount s (u32 (Memory.readList s.mem (s.areaBase + 0x280) 4) 0) < s.cfg.eventCount - 1

/-- The event entry at the cursor lies in the event list. -/
theorem eventEntry_le {s : State} (h : RegionsOk s) : s.cfg.eventBase + 48 * s.list.evIndex + 48 ≤ 2 ^ 32 := by
  obtain ⟨-, -, -, -, -, he, hi, -, -⟩ := h
  omega

theorem portOpen_of_working {s : State} (h : Working s) : portOpen s = true := by
  obtain h | h | h := h <;> simp [portOpen, h]

theorem ne_faulted_of_working {s : State} (h : Working s) : s.part ≠ .faulted := by
  obtain h | h | h := h <;> simp [h]

/-- An event where the regions can be reached is written, or missed (R168). -/
theorem emit_regions {e : Event} {s : State} (h : RegionsOk s) (hw : Working s) :
    (eventRoom s → emit e s = eventWritten e s) ∧ (¬ eventRoom s → emit e s = missEvent e s) := by
  have he := emit_ok (e := e) hw h.2.1 h.2.2.1 (eventEntry_le h)
  exact ⟨fun hr => he.trans (if_pos (of_decide_eq_true hr)), fun hr => he.trans (if_neg fun hd => hr (decide_eq_true hd))⟩

theorem emit_cases {e : Event} {s : State} (h : RegionsOk s) (hw : Working s) :
    emit e s = eventWritten e s ∨ emit e s = missEvent e s := by
  by_cases hr : eventRoom s
  · exact .inl ((emit_regions h hw).1 hr)
  · exact .inr ((emit_regions h hw).2 hr)

/-- The event cursor stays in the event list. -/
theorem advanceEventCursor_list (s : State) : ∃ i l, advanceEventCursor s =
    { s with list := { s.list with evIndex := i, evLap := l } } ∧ (s.list.evIndex < s.cfg.eventCount → i < s.cfg.eventCount) := by
  unfold advanceEventCursor
  split
  · exact ⟨_, _, rfl, fun _ => by assumption⟩
  · exact ⟨_, _, rfl, fun h => Nat.zero_lt_of_lt h⟩

/-- The list engine with another event cursor and another mask of missed events. -/
def cursorAt (l : ListEngine) (i lap : Nat) (m : BitVec 24) : ListEngine := { l with evIndex := i, evLap := lap, missed := m }

/-- What an act leaves: other memory and attention bits, and another event cursor and mask. -/
structure Acted (s t : State) : Prop where
  frame : t = put t s
  list : ∃ i lap m, t.list = cursorAt s.list i lap m
  wf : Memory.wf s.mem = true → Memory.wf t.mem = true
  cursor : s.list.evIndex < s.cfg.eventCount → t.list.evIndex < s.cfg.eventCount

theorem Acted.refl (s : State) : Acted s s := ⟨rfl, ⟨_, _, _, rfl⟩, id, id⟩

theorem Acted.trans {s t u : State} (h : Acted s t) (h' : Acted t u) : Acted s u where
  frame := by rw [h'.frame, h.frame]; rfl
  list := by
    obtain ⟨i, lap, m, hl⟩ := h'.list
    obtain ⟨i', lap', m', hl'⟩ := h.list
    exact ⟨i, lap, m, by rw [hl, hl']; rfl⟩
  wf := h'.wf ∘ h.wf
  cursor hc := by
    have hcfg : t.cfg = s.cfg := by rw [h.frame]; rfl
    rw [← hcfg]
    exact h'.cursor (hcfg ▸ h.cursor hc)

theorem Acted.part {s t : State} (h : Acted s t) : t.part = s.part := by rw [h.frame]; rfl

theorem Acted.working {s t : State} (h : Acted s t) (hw : Working s) : Working t := by
  unfold Working
  rwa [h.part]

theorem Acted.regionsOk {s t : State} (h : Acted s t) (hr : RegionsOk s) : RegionsOk t := by
  obtain ⟨hm, he, ha, hb, hl, hv, hi, hs, hp⟩ := hr
  have hm := h.wf hm
  have hi := h.cursor hi
  rw [h.frame]
  exact ⟨hm, he, ha, hb, hl, hv, hi, hs, hp⟩

/-- The list engine after acts, but for the cursor and the mask, is as before. -/
theorem Acted.list_eq {s t : State} (h : Acted s t) :
    t.list = cursorAt s.list t.list.evIndex t.list.evLap t.list.missed := by
  obtain ⟨i, lap, m, hl⟩ := h.list
  rw [hl]
  rfl

theorem acted_written {e : Event} {s : State} : Acted s (eventWritten e s) := by
  obtain ⟨i, l, h, hi⟩ := advanceEventCursor_list { s with mem := eventMem e s }
  rw [eventWritten, h]
  exact ⟨rfl, ⟨_, _, _, rfl⟩, fun hw => storeBytes_wf (storeBytes_wf hw), hi⟩

theorem acted_missed {e : Event} {s : State} : Acted s (missEvent e s) := ⟨rfl, ⟨_, _, _, rfl⟩, id, id⟩

theorem acted_emit {e : Event} {s : State} (h : RegionsOk s) (hw : Working s) : Acted s (emit e s) := by
  obtain he | he := emit_cases (e := e) h hw <;> rw [he]
  · exact acted_written
  · exact acted_missed

theorem acted_act {a : Act} {s : State} (h : RegionsOk s) (hw : Working s) : Acted s (act s a) := by
  cases a with
  | event e => exact acted_emit h hw
  | answer slot code w0 w1 => exact ⟨rfl, ⟨_, _, _, rfl⟩, fun h => storeBytes_wf (storeBytes_wf (storeBytes_wf h)), id⟩
  | store a bytes => exact ⟨rfl, ⟨_, _, _, rfl⟩, storeBytes_wf, id⟩
  | attention bits => exact ⟨rfl, ⟨_, _, _, rfl⟩, id, id⟩

theorem acted_acts : ∀ {as : List Act} {s : State}, RegionsOk s → Working s → Acted s (as.foldl act s)
  | [], s, _, _ => .refl s
  | _ :: _, _, h, hw => (acted_act h hw).trans (acted_acts ((acted_act h hw).regionsOk h) ((acted_act h hw).working hw))

/-- An event reads nothing of the state but what `Alike` names. -/
theorem emit_put {e : Event} {u v : State} (h : RegionsOk u) (hw : Working u) (ha : Alike u v) :
    emit e (put u v) = put (emit e u) v := by
  obtain ⟨he, hb, hc, hf, hx, hv⟩ := ha
  have hl := eventEntry_le h
  have ho : emit e (put u v) = if eventRoom (put u v) then eventWritten e (put u v) else missEvent e (put u v) :=
    (emit_ok (s := put u v) hv (he.trans h.2.1) (hb ▸ h.2.2.1) (by rw [← hc] at hl; exact hl)).trans
      (if_congr decide_eq_true_iff.symm rfl rfl)
  have hroom : eventRoom (put u v) = eventRoom u := by
    simp only [eventRoom, usedCount, put, hb, hc]
    rfl
  have hmem : eventMem e (put u v) = eventMem e u := by
    simp only [eventMem, put, hc, hf, hx]
  rw [ho]
  by_cases hr : eventRoom u
  · rw [if_pos (hroom.trans hr), (emit_regions h hw).1 hr, eventWritten, eventWritten, hmem]
    simp only [advanceEventCursor, put, hc]
    split <;> rfl
  · rw [if_neg (hroom ▸ hr), (emit_regions h hw).2 hr]
    rfl

theorem act_put {a : Act} {u v : State} (h : RegionsOk u) (hw : Working u) (ha : Alike u v) :
    act (put u v) a = put (act u a) v := by
  cases a with
  | event e => exact emit_put h hw ha
  | answer | store | attention => rfl

theorem Acted.alike {s t v : State} (h : Acted s t) (ha : Alike s v) : Alike t v := by
  obtain ⟨he, hb, hc, hf, hx, hv⟩ := ha
  rw [h.frame]
  exact ⟨he, hb, hc, hf, hx, hv⟩

/-- Acts can be done before or after a change of the rest of the state. -/
theorem acts_put : ∀ {as : List Act} {u v : State}, RegionsOk u → Working u → Alike u v →
    as.foldl act (put u v) = put (as.foldl act u) v
  | [], _, _, _, _, _ => rfl
  | _ :: as, u, v, h, hw, ha => by
    have hd := acted_act (a := ‹Act›) h hw
    rw [List.foldl_cons, act_put h hw ha, List.foldl_cons, acts_put (hd.regionsOk h) (hd.working hw) (hd.alike ha)]

/-- Events one after another are acts. -/
theorem emitAll_eq : ∀ (es : List Event) (s : State), emitAll es s = (events es).foldl act s
  | [], _ => rfl
  | e :: es, s => emitAll_eq es (emit e s)

/-- A change of the lamp unit with its events, where the regions can be reached. -/
theorem lampDo_regions {r : Lamp × List Event} {s : State} (h : RegionsOk s) (hw : Working s) :
    lampDo r s = put ((events r.2).foldl act s) { s with lamp := r.1 } :=
  (emitAll_eq _ _).trans (acts_put (v := { s with lamp := r.1 }) h hw { working := hw })

/-- An answer to a request, where the part may write. -/
theorem complete_working {slot code w0 w1 : Nat} {s : State} (hw : Working s) (he : s.errors = [])
    (hl : slot + 64 ≤ 2 ^ 32) : complete slot code w0 w1 s = act s (.answer slot code w0 w1) :=
  complete_ok (portOpen_of_working hw) he (by omega)

/-! ### What acts leave in memory -/

/-- The bytes that an act can write. -/
def actRange (s : State) : Act → List (Nat × Nat)
  | .event _ => [eventList s]
  | .answer slot _ _ _ => [slotHead slot]
  | .store a bytes => [(a, bytes.length)]
  | .attention _ => []

theorem sameOutside_mono {rs rs' : List (Nat × Nat)} {s t : State} (hr : ∀ r ∈ rs, r ∈ rs') (h : SameOutside rs s t) :
    SameOutside rs' s t := fun a ha => h a fun r hm => ha r (hr r hm)

theorem sameOutside_trans {rs : List (Nat × Nat)} {s t u : State} (h : SameOutside rs s t) (h' : SameOutside rs t u) :
    SameOutside rs s u := fun a ha => (h' a ha).trans (h a ha)

/-- Bytes stored leave the others. -/
theorem read_storeBytes {m : List Host.Cell} {a x : Nat} {bs : List Byte} (h : Memory.wf m = true)
    (hx : ¬ InRange (a, bs.length) x) : Memory.read (storeBytes m a bs) x = Memory.read m x := by
  refine read_storeBytes_outside h ?_
  simp only [InRange] at hx
  omega

/-- An event entry leaves what lies outside the event list. -/
theorem read_eventMem {e : Event} {s : State} {x : Nat} (h : RegionsOk s) (hx : ¬ InRange (eventList s) x) :
    Memory.read (eventMem e s) x = Memory.read s.mem x := by
  obtain ⟨hm, -, -, -, -, -, hi, -, -⟩ := h
  simp only [InRange, eventList] at hx
  rw [eventMem, read_storeBytes (storeBytes_wf hm), read_storeBytes hm]
  · simp only [InRange, eventBytes_length]
    omega
  · simp only [InRange, List.length_singleton]
    omega

theorem read_answered {slot code w0 w1 x : Nat} {s : State} (h : Memory.wf s.mem = true) (hx : ¬ InRange (slotHead slot) x) :
    Memory.read (answered slot code w0 w1 s).mem x = Memory.read s.mem x := by
  simp only [InRange, slotHead] at hx
  rw [answered, read_storeBytes (storeBytes_wf (storeBytes_wf h)), read_storeBytes (storeBytes_wf h), read_storeBytes h]
    <;> simp only [InRange, le32, List.length_append, List.length_cons, List.length_nil] <;> omega

theorem act_sameOutside {a : Act} {s : State} (h : RegionsOk s) (hw : Working s) :
    SameOutside (actRange s a) s (act s a) := by
  intro x hx
  cases a with
  | event e =>
    have hx := hx _ (List.mem_singleton_self _)
    obtain he | he := emit_cases (e := e) h hw
    · obtain ⟨i, l, hc, -⟩ := advanceEventCursor_list { s with mem := eventMem e s }
      rw [act, he, eventWritten, hc]
      exact read_eventMem h hx
    · rw [act, he]
      rfl
  | answer slot => exact read_answered h.1 (hx _ (List.mem_singleton_self _))
  | store a bytes => exact read_storeBytes h.1 (hx _ (List.mem_singleton_self _))
  | attention => rfl

theorem actRange_acted {s t : State} (h : Acted s t) (a : Act) : actRange t a = actRange s a := by
  cases a with
  | event => rw [h.frame]; rfl
  | answer | store | attention => rfl

/-- Acts write their own ranges alone. -/
theorem acts_sameOutside : ∀ {as : List Act} {s : State}, RegionsOk s → Working s →
    SameOutside (as.flatMap (actRange s)) s (as.foldl act s)
  | [], _, _, _ => fun _ _ => rfl
  | a :: as, s, h, hw => by
    have hd := acted_act (a := a) h hw
    refine sameOutside_trans (sameOutside_mono (fun r hr => ?_) (act_sameOutside h hw))
      (sameOutside_mono (fun r hr => ?_) (acts_sameOutside (as := as) (hd.regionsOk h) (hd.working hw)))
    · exact List.mem_flatMap.2 ⟨a, List.mem_cons_self, hr⟩
    · obtain ⟨b, hb, hr⟩ := List.mem_flatMap.1 hr
      exact List.mem_flatMap.2 ⟨b, List.mem_cons_of_mem _ hb, actRange_acted hd b ▸ hr⟩

/-- A slot answered holds its answer. -/
theorem answered_holds {slot code w0 w1 : Nat} {s : State} (h : Memory.wf s.mem = true) :
    HoldsAnswer slot code w0 w1 (answered slot code w0 w1 s) := by
  have h1 := storeBytes_wf (bs := [byte code]) (a := slot + 3) h
  have h2 := storeBytes_wf (bs := le32 w0 ++ le32 w1) (a := slot + 8) h1
  have word : ∀ i < 8, Memory.read (answered slot code w0 w1 s).mem (slot + 8 + i) = (le32 w0 ++ le32 w1).getD i 0 := by
    intro i hi
    rw [answered, read_storeBytes h2 (by simp only [InRange, List.length_singleton]; omega),
      read_storeBytes_inside h1 (by simpa [le32] using hi)]
  refine ⟨?_, ?_, ?_, ?_⟩
  · exact read_storeBytes_inside (i := 0) h2 (by simp)
  · rw [answered, read_storeBytes h2 (by simp only [InRange, List.length_singleton]; omega),
      read_storeBytes h1 (by simp only [InRange, le32, List.length_append, List.length_cons, List.length_nil]; omega)]
    exact read_storeBytes_inside (i := 0) h (by simp)
  · simp only [Memory.readList, word 0 (by decide), word 1 (by decide), word 2 (by decide), word 3 (by decide), word 4 (by decide),
      word 5 (by decide), word 6 (by decide), word 7 (by decide), Nat.add_assoc, Nat.reduceAdd]
    rfl
  · simp [answered]

end Sys2Proof.Proofs

namespace Sys2Proof.Proofs

open Sys2Proof.Machine Sys2Proof.Safety Sys2Proof.Laws

/-! ## The port where single addresses answer without an error -/

theorem portOk_iff {errors : List (Nat × Nat)} {a : Nat} :
    portOk errors a = true ↔ a < 2 ^ 32 ∧ ∀ r ∈ errors, ¬ InRange r a := by
  simp only [portOk, InRange, Bool.and_eq_true, decide_eq_true_eq, List.all_eq_true, Bool.not_eq_true', Bool.and_eq_false_iff,
    decide_eq_false_iff_not, not_and_or]
  rfl

theorem portRead_reached {a n : Nat} {s : State} (ho : portOpen s = true) (h : ∀ i < n, portOk s.errors (a + i) = true) :
    portRead a n s = some (Memory.readList s.mem a n) :=
  if_pos (Bool.and_eq_true _ _ ▸ ⟨ho, List.all_eq_true.2 fun i hi => h i (List.mem_range.1 hi)⟩)

theorem portReadSome_reached {assigned : Nat → Bool} {a n : Nat} {s : State} (ho : portOpen s = true)
    (h : ∀ i < n, assigned i = true → portOk s.errors (a + i) = true) :
    portReadSome assigned a n s = some (recordBytes assigned s.mem a n) := by
  refine if_pos (Bool.and_eq_true _ _ ▸ ⟨ho, List.all_eq_true.2 fun i hi => ?_⟩)
  cases ha : assigned i
  · rfl
  · exact h i (List.mem_range.1 hi) ha

theorem portWrite_byte {a : Nat} {b : Byte} {s : State} (ho : portOpen s = true) (h : portOk s.errors a = true) :
    portWrite a [b] s = { s with mem := Memory.write s.mem a b } := by
  rw [portWrite, if_pos ho, writeFrom, if_pos h, writeFrom]

/-! ## A scan (R15, R16) -/

/-- A host transfer takes a place in its queue, a host message a host place (R16). -/
theorem unitRoom_iff (kind : Nat) (s : State) : unitRoom kind s = true ↔
    (kind = 13 → s.bus.queue.length < 4) ∧ (kind = 16 → (s.link.queue.filter fun q => q.host.isSome).length < 3) := by
  unfold unitRoom kBusTransfer kUplinkSend hostPlaces
  split
  · rename_i h
    simp [h]
  · rename_i h
    split
    · rename_i h'
      simp [h']
    · rename_i h'
      simp [h, h']

theorem slot?_eq_some {o : StillOrigin} {a : Nat} : o.slot? = some a ↔ o = .snapshot a := by
  cases o <;> simp [StillOrigin.slot?]

/-- The places where a request that is not completed stands (R13). -/
theorem mem_heldSlots (a : Nat) (s : State) : a ∈ heldSlots s ↔
    (∃ r ∈ s.list.handed, r.slot = a) ∨ (∃ r ∈ s.overlay.edits, r.slot = a) ∨ (∃ h ∈ s.bus.queue, h.slot = a)
    ∨ a ∈ s.bus.resets ∨ (∃ q ∈ s.link.queue, q.host = some a) ∨ (∃ x ∈ s.link.sending, x.msg.host = some a)
    ∨ (∃ o ∈ s.still.orders, o.origin = .snapshot a) ∨ ∃ c ∈ s.still.copy, c.origin = .snapshot a := by
  simp only [heldSlots, List.mem_append, Option.mem_toList, List.mem_map, List.mem_filterMap, Option.map_eq_some_iff,
    Option.bind_eq_some_iff, slot?_eq_some, Option.mem_def, or_assoc]

/-- The argument bytes of a kind, as one table of kind, first byte and count (section 12.3). -/
theorem usesArgument_iff (kind i : Nat) : usesArgument kind i = true ↔ ∃ row ∈ [(1, 0, 6), (2, 0, 1), (2, 2, 23),
    (2, 28, 8), (3, 0, 2), (4, 0, 2), (4, 4, 12), (5, 0, 12), (6, 0, 2), (7, 0, 4), (8, 0, 4), (10, 0, 46), (11, 0, 48),
    (12, 0, 2), (12, 4, 4), (13, 0, 28), (14, 0, 7), (16, 0, 2), (16, 4, 32), (17, 0, 1), (17, 4, 4)],
    kind = row.1 ∧ row.2.1 ≤ i ∧ i < row.2.1 + row.2.2 := by
  unfold usesArgument argumentFields
  split
  case h_16 h1 h2 h3 h4 h5 h6 h7 h8 h9 h10 h11 h12 h13 h14 h15 =>
    simp_all
  all_goals simp

/-- The first two bytes of a slot decide what the scan does with it (R15). -/
theorem scanSlotOp_reached {s : State} (ho : portOpen s = true) (h : ∀ i < 2, portOk s.errors (cursorSlot s + i) = true) :
    scanSlotOp s =
      (let lap := (Memory.read s.mem (cursorSlot s + 1)).toNat
       let d := lapDistance lap s.list.reqLap
       if Memory.read s.mem (cursorSlot s) ≠ 1 ∨ cursorSlot s ∈ heldSlots s then endScan s
       else if d = 0 then readRequest s
       else if d = 3 then endScan s
       else listFault lap s) := by
  have hb : (u8 [Memory.read s.mem (cursorSlot s), Memory.read s.mem (cursorSlot s + 1)] 0 ≠ 1)
      = (Memory.read s.mem (cursorSlot s) ≠ 1) := by
    simp only [u8, List.getD_cons_zero, ne_eq, ← BitVec.toNat_inj]
    rfl
  simp only [scanSlotOp, portRead_reached ho h, Memory.readList, hb, List.contains_iff_mem]
  rfl

theorem lapDistance_same {lap : Nat} (h : lap < 4) : lapDistance lap lap = 0 := by
  unfold lapDistance
  split <;> omega

theorem lapDistance_behind {lap reqLap : Nat} (h : lap < 4) (hr : (lap + 1) % 4 = reqLap) : lapDistance lap reqLap = 3 := by
  unfold lapDistance
  split <;> omega

theorem lapDistance_ahead {lap reqLap : Nat}
    (hr : 3 < lap ∨ lap = (reqLap + 1) % 4 ∨ lap = (reqLap + 2) % 4) :
    lapDistance lap reqLap ≠ 0 ∧ lapDistance lap reqLap ≠ 3 := by
  unfold lapDistance
  split <;> omega

theorem scanReady_iff {s : State} : scanReady s = true ↔
    s.part = .running ∧ s.list.scanning = true ∧ s.list.handed = none := by
  simp [scanReady, and_assoc]

theorem exec_scanSlot {m : Nat} {s : State} (h : scanReady s = true) :
    exec (.scanSlot m) s = .next (scanSlotOp (advance m s)) := congrArg Host.Outcome.next (if_pos h)

/-- The slot at the cursor can be reached. -/
theorem cursorSlot_le {s : State} (h : RegionsOk s) (hi : s.list.reqIndex < s.cfg.slots) :
    s.cfg.listBase + 64 * s.list.reqIndex + 64 ≤ 2 ^ 32 := by
  obtain ⟨-, -, -, -, hl, -⟩ := h
  omega

theorem portOpen_running {s : State} (h : s.part = .running) : portOpen s = true := by simp [portOpen, h]

/-- What the scan does with the slot at the cursor, where its first two bytes can be reached (R15). -/
theorem exec_scanSlot_reached {m : Nat} {s : State} (h : scanReady s = true)
    (hok : ∀ i < 2, portOk s.errors (s.cfg.listBase + 64 * s.list.reqIndex + i) = true) :
    exec (.scanSlot m) s =
      (let a := s.cfg.listBase + 64 * s.list.reqIndex
       let lap := (Memory.read s.mem (a + 1)).toNat
       let d := lapDistance lap s.list.reqLap
       .next (if Memory.read s.mem a ≠ 1 ∨ a ∈ heldSlots s then endScan (advance m s)
         else if d = 0 then readRequest (advance m s)
         else if d = 3 then endScan (advance m s)
         else listFault lap (advance m s))) := by
  rw [exec_scanSlot h, scanSlotOp_reached (s := advance m s) (portOpen_running (scanReady_iff.1 h).1) hok]
  rfl

/-- Where no address answers with an error, an address of 32 bits is reached. -/
theorem portOk_of_regions {s : State} {a : Nat} (h : RegionsOk s) (ha : a < 2 ^ 32) : portOk s.errors a = true := by
  rw [h.2.1, portOk_iff]
  exact ⟨ha, fun _ h => nomatch h⟩

/-- The list engine at a list fault (R15). -/
def listStopped (s : State) : State := { s with list := { s.list with listState := .faulted, scanning := false } }

/-- LIST_FAULT, then FAULT (R15). -/
def faultActs (lap : Nat) (s : State) : List Act :=
  [.event (Event.listFault s.list.reqIndex s.list.reqLap lap), .attention attFault]

theorem listFault_acts {lap : Nat} {s : State} (h : RegionsOk s) (hw : Working s) (m : Nat) :
    listFault lap (advance m s) = put ((faultActs lap s).foldl act (listStopped s)) (advance m (listStopped s)) := by
  have he := emit_put (e := Event.listFault s.list.reqIndex s.list.reqLap lap) (u := listStopped s)
    (v := advance m (listStopped s)) h hw { working := hw }
  have hl : listFault lap (advance m s) = onward (emit (Event.listFault s.list.reqIndex s.list.reqLap lap)
    (put (listStopped s) (advance m (listStopped s)))) (setAttention attFault) := rfl
  rw [hl, he, onward_of_ne (ne_faulted_of_working (s := put _ (advance m (listStopped s))) hw)]
  rfl

/-- An event is written, with EVENT, or missed, with its bit in the mask. -/
theorem emit_reported {e : Event} {s : State} (h : RegionsOk s) (hw : Working s) (hk : e.kind < 24) :
    Reported e.kind (emit e s) := by
  obtain he | he := emit_cases (e := e) h hw
  · left
    obtain ⟨i, l, hc, -⟩ := advanceEventCursor_list { s with mem := eventMem e s }
    rw [he, eventWritten, hc]
    simp [attEvent]
  · right
    rw [he]
    have hb : (BitVec.ofNat 24 (2 ^ e.kind)).getLsbD e.kind = true := by
      rw [BitVec.getLsbD_ofNat, Nat.testBit_two_pow_self, decide_eq_true hk]
      rfl
    rw [missEvent, BitVec.getLsbD_or, hb, Bool.or_true]

/-- Settles O17. -/
theorem scanEndsOrFaults : Obligations.ScanEndsOrFaults := by
  intro m s hs hr hi hlap a lap ended
  have hw : Working s := .inl (scanReady_iff.1 hs).1
  have ha := cursorSlot_le hr hi
  have hx := exec_scanSlot_reached (m := m) hs fun i _ => portOk_of_regions hr (by omega)
  refine ⟨fun h => hx.trans (congrArg _ (if_pos h)), fun hp hh hl hd => ?_, fun hp hh hd => ?_⟩
  · have d3 := lapDistance_behind hl hd
    rw [hx]
    simp only [ne_eq]
    rw [if_neg (by simp [hp, hh, a]), if_neg (by rw [d3]; decide), if_pos d3]
    rfl
  · obtain ⟨d0, d3⟩ := lapDistance_ahead hd
    have hu : Acted (listStopped s) ((faultActs lap s).foldl act (listStopped s)) := acted_acts hr hw
    have hx : exec (.scanSlot m) s = _ := hx.trans (congrArg Host.Outcome.next
      ((if_neg (by simp [hp, hh, a])).trans ((if_neg d0).trans ((if_neg d3).trans (listFault_acts hr hw m)))))
    refine ⟨_, hx, ?_, ?_, ⟨rfl, rfl, rfl⟩, ?_, ?_⟩
    · simp [faultActs, act, attFault]
    · refine (emit_reported (e := Event.listFault s.list.reqIndex s.list.reqLap lap) (s := listStopped s) hr hw
        (Nat.lt_succ_self 23)).imp (fun h => ?_) id
      simp only [faultActs, List.foldl_cons, List.foldl_nil, act, put_attention, BitVec.getLsbD_or]
      exact Bool.or_eq_true_iff.2 (.inl h)
    · exact sameOutside_mono (by simp [faultActs, actRange, eventList, listStopped]) (acts_sameOutside (s := listStopped s) hr hw)
    · generalize (faultActs lap s).foldl act (listStopped s) = w at hu ⊢
      rw [put, hu.list_eq]
      rfl

/-- A new request is read with the bytes its kind uses, where these can be reached (R15, R16, R18). -/
theorem readRequest_reached {s : State} (ho : portOpen s = true)
    (hs : ∀ i < 8, i ≠ 3 → portOk s.errors (cursorSlot s + i) = true)
    (ha : ∀ i < 48, usesArgument (Memory.read s.mem (cursorSlot s + 2)).toNat i = true →
      portOk s.errors (cursorSlot s + 16 + i) = true) :
    readRequest s =
      (let kind := (Memory.read s.mem (cursorSlot s + 2)).toNat
       if unitRoom kind s then takeSlot { slot := cursorSlot s, kind := kind
                                          args := recordBytes (usesArgument kind) s.mem (cursorSlot s + 16) 48 } s
       else endScan s) := by
  have hk : portRead (cursorSlot s + 2) 1 s = some [Memory.read s.mem (cursorSlot s + 2)] :=
    portRead_reached ho fun i hi => Nat.add_assoc _ 2 i ▸ hs _ (by omega) (by omega)
  have ht := portRead_reached (a := cursorSlot s + 4) (n := 4) ho fun i hi => Nat.add_assoc _ 4 i ▸ hs _ (by omega) (by omega)
  have hargs := portReadSome_reached (a := cursorSlot s + 16) (n := 48) ho ha
  unfold readRequest
  simp only [hk, ht, u8, List.getD_cons_zero, hargs]

/-- A request is taken: TAKEN, in hand, and the cursor on (R15). -/
theorem takeSlot_reached {r : Request} {s : State} (hp : s.part = .running) (h : portOk s.errors r.slot = true) :
    takeSlot r s = { s with
      mem := Memory.write s.mem r.slot 2
      list := { s.list with
        handed := some r
        reqIndex := if s.list.reqIndex + 1 < s.cfg.slots then s.list.reqIndex + 1 else 0
        reqLap := if s.list.reqIndex + 1 < s.cfg.slots then s.list.reqLap else (s.list.reqLap + 1) % 4 } } := by
  rw [takeSlot, portWrite_byte (portOpen_running hp) h, onward_of_ne (by rw [hp]; decide), advanceCursor]
  simp only
  split <;> rfl

/-- Settles O16. -/
theorem scanTakesNewRequest : Obligations.ScanTakesNewRequest := by
  refine ⟨unitRoom_iff, mem_heldSlots, usesArgument_iff, ?_⟩
  intro m s hs hr hi hlap a kind args hp hl hh
  have hrun := (scanReady_iff.1 hs).1
  have hc := cursorSlot_le hr hi
  have hd : lapDistance (Memory.read s.mem (a + 1)).toNat s.list.reqLap = 0 := by
    rw [hl]
    exact lapDistance_same hlap
  have scanned : ∀ errors : List (Nat × Nat), (∀ i < 8, i ≠ 3 → portOk errors (a + i) = true) →
      exec (.scanSlot m) { s with errors := errors } = .next (readRequest (advance m { s with errors := errors })) :=
    fun errors he => (exec_scanSlot_reached (s := { s with errors := errors }) hs fun i hi => he i (by omega) (by omega)).trans
      (congrArg Host.Outcome.next ((if_neg (by
        rw [not_or, not_not]
        exact ⟨hp, hh⟩)).trans (if_pos hd)))
  refine ⟨fun hroom => ?_, fun errors hroom hok => ?_⟩
  · have hok : ∀ i < 64, portOk s.errors (a + i) = true := fun i _ => portOk_of_regions hr (by omega)
    refine (scanned s.errors fun i _ _ => hok i (by omega)).trans (congrArg Host.Outcome.next ?_)
    rw [readRequest_reached (s := advance m s) (portOpen_running hrun) (fun i _ _ => hok i (by omega))
      (fun i _ _ => Nat.add_assoc _ 16 i ▸ hok (16 + i) (by omega))]
    exact if_neg (by rw [Bool.not_eq_true]; exact hroom)
  · have hok : ∀ i < 64, i < 8 ∧ i ≠ 3 ∨ (16 ≤ i ∧ usesArgument kind (i - 16) = true) → portOk errors (a + i) = true :=
      fun i hi hu => portOk_iff.2 ⟨by omega, fun r hm => hok r hm i hi hu⟩
    refine (scanned errors fun i _ _ => hok i (by omega) (by omega)).trans (congrArg Host.Outcome.next ?_)
    rw [readRequest_reached (s := advance m { s with errors := errors }) (portOpen_running hrun)
      (fun i _ _ => hok i (by omega) (by omega))
      (fun i _ hu => Nat.add_assoc _ 16 i ▸ hok (16 + i) (by omega) (.inr ⟨by omega, (Nat.add_sub_cancel_left 16 i).symm ▸ hu⟩))]
    exact (if_pos hroom).trans (takeSlot_reached hrun (hok 0 (by omega) (by omega)))

/-! ## Requests answered at their hand-over -/

/-- In RUNNING with no LIST_RESYNC waiting, nothing follows a hand-over. -/
theorem finishHand_running {s : State} (hp : s.part = .running) (hr : s.list.resyncWaiting = false) : finishHand s = s := by
  have hs : settleHalt s = s := if_neg (by simp [hp])
  unfold finishHand
  rw [hr]
  simp only [Bool.false_eq_true, if_false]
  rw [if_pos hp, hs]

/-- A request that only asks for an answer, at its hand-over. -/
theorem handOver_answered {k code w0 w1 : Nat} {r : Request} {s : State} {isKind : Nat → Bool} {f : Request → State → State}
    (h : InHand k r s) (hk : isKind k = true) (hf : f r (released s) = complete r.slot code w0 w1 (released s)) :
    handOver isKind f s = answered r.slot code w0 w1 (released s) := by
  obtain ⟨hp, hh, hrk, hw, hr, hs⟩ := h
  have hc : f r (released s) = answered r.slot code w0 w1 (released s) :=
    hf.trans (complete_ok (portOpen_running hp) hr.2.1 (by omega))
  have ho : handOver isKind f s = finishHand (f r (released s)) := by
    simp only [handOver, hh, hrk, hk, if_true]
    rfl
  rw [ho, hc]
  exact finishHand_running hp hw

/-- A request that is refused answers BAD_ARGUMENT (R18). -/
theorem handOverKind_refused {k : Nat} {r : Request} {s : State} {f : Request → State → State} (h : InHand k r s)
    (hf : f r (released s) = badArgument r (released s)) :
    handOverKind k f s = answered r.slot 3 0 0 (released s) := handOver_answered h (beq_self_eq_true k) hf

theorem s8_ne {bs : List Byte} {i : Nat} (h : u8 bs i ≠ 1) (h' : u8 bs i ≠ 255) : s8 bs i ≠ 1 ∧ s8 bs i ≠ -1 :=
  ⟨fun he => h (congrArg BitVec.toNat (BitVec.eq_of_toInt_eq (x := bs.getD i 0) (y := 1#8) he)),
    fun he => h' (congrArg BitVec.toNat (BitVec.eq_of_toInt_eq (x := bs.getD i 0) (y := 255#8) he))⟩

theorem temperatureElsewhere_of {polls : List Poll} {j : Nat}
    (h : ∃ i < polls.length, i ≠ j ∧ (polls.getD i {}).entry.role = .temperature) : temperatureElsewhere polls j = true := by
  obtain ⟨i, hi, hj, ht⟩ := h
  exact List.any_eq_true.2 ⟨i, List.mem_range.2 hi, by rw [ht]; simpa using hj⟩

/-- Settles O19, kind by kind. -/
theorem malformedRequestsRefused : Obligations.MalformedRequestsRefused := by
  intro k r s hin bad at_
  refine ⟨fun hk => ?_, ?_, ?_, ?_, ?_, ?_, ?_, ?_, ?_, ?_, ?_⟩
  · refine congrArg Host.Outcome.next (handOver_answered hin ?_ rfl)
    simp only [knownKind, Bool.not_eq_true', Bool.and_eq_false_iff, decide_eq_false_iff_not]
    omega
  all_goals
    rintro rfl h
    refine congrArg Host.Outcome.next (handOverKind_refused hin (if_pos ?_))
  · simpa [lampSetRefused, or_assoc] using h
  · simp [exposureSetRefused, at_] at h ⊢
    exact .inl h
  · exact h
  · obtain h | ⟨hb, h1, h255⟩ := h
    · simp only [calibrateRefused, Bool.or_eq_true, beq_iff_eq]
      exact .inl h
    · obtain ⟨ne, ne'⟩ := s8_ne h1 h255
      simp [calibrateRefused, hb, ne, ne']
  · simpa [markSetRefused, or_assoc] using h
  · exact h
  · simpa [transferRefused, or_assoc] using h
  · have ht := temperatureElsewhere_of (polls := s.bus.polls) (j := at_ 0)
    simp only [pollSetRefused, Bool.or_eq_true, Bool.and_eq_true, decide_eq_true_eq, beq_iff_eq, bne_iff_ne, released_bus]
    simp only [at_] at h ht
    generalize (∃ i < s.bus.polls.length, i ≠ u8 r.args 0 ∧ (s.bus.polls.getD i {}).entry.role = .temperature) = other at h ht
    tauto
  · simpa [uplinkRefused, or_assoc] using h
  · exact h

end Sys2Proof.Proofs

namespace Sys2Proof.Proofs

open Sys2Proof.Machine Sys2Proof.Safety Sys2Proof.Laws

/-! ## Entry to FAULTED, field by field -/

theorem enterFaulted_eq {s : State} (hp : s.part ≠ .off) (hp' : s.part ≠ .faulted) :
    enterFaulted s = faultBus (faultBlocks s) := if_neg (by simp [hp, hp'])

theorem advance_zero (s : State) : advance 0 s = s := by
  rw [advance, Nat.max_eq_left (Nat.zero_le _)]

theorem exec_memoryError {m : Nat} {s : State} (hp : s.part ≠ .off) (hp' : s.part ≠ .faulted) :
    exec (.memoryError m) s = .next (enterFaulted (advance m s)) := congrArg Host.Outcome.next (if_neg (by simp [hp, hp']))

/-- Entry to FAULTED is a part outside OFF in FAULTED. -/
theorem enterFaulted_ends {s : State} (hp : s.part ≠ .off) : (enterFaulted s).part = .faulted := by
  rw [enterFaulted_part, if_neg hp]

/-- The lamp levels of FAULTED (R91). -/
theorem faultLamp_eq (s : State) :
    faultLamp s = (lampUpdate .faulted s.cfg.stillLevel { s.lamp with boost := false, strobe := false }).1 := by
  have hl : PartState.faulted.lit = false := rfl
  simp only [faultLamp, lampEnter, hl, Bool.and_false]

/-- The stale condition of a fourth failed poll, as the lamp unit's rule gives it (R81, R82). -/
theorem lampPollFailed_eq (part : PartState) (cfg : Cfg) (l : Lamp) : lampPollFailed part cfg l = tempMissed part cfg l := by
  unfold lampPollFailed tempMissed lampStale staled recomputeCeiling
  simp only [thermalCeiling, if_true, eq_comm (a := cfg.floor)]
  split
  · split
    · rfl
    · split <;> rfl
  · rfl

/-- A failed gain write, as the exposure unit's rule gives it (R102). -/
theorem afterWrite_failed (e : Exposure) :
    afterWrite { e with failures := min 255 (e.failures + 1), retry := true } = writeFailed e := by
  unfold afterWrite writeFailed
  cases h : e.behind <;> simp

theorem gainWriteEnd_failed {v : Nat} {o : BusOutcome} {s : State} (ho : o ≠ .success) :
    (gainWriteEnd v o s).1 = { s with exposure := writeFailed s.exposure } := by
  rw [gainWriteEnd, if_neg ho, ← afterWrite_failed]

theorem updateAt_eq_set {α : Type} {l : List α} {j : Nat} {x : α} {f : α → α} (h : l[j]? = some x) :
    updateAt l j f = l.set j (f x) := by
  rw [updateAt, List.modify_eq_set_getElem?, h]
  rfl

/-- A failed poll, as the rules of the head bus and the lamp unit give it (R81, R152). -/
theorem pollEnd_failed {j : Nat} {o : BusOutcome} {bs : List Byte} {s : State} {p : Poll} (ho : o ≠ .success)
    (h : s.bus.polls[j]? = some p) : (pollEnd j false o bs s).1 = { s with
      bus := { s.bus with
        polls := s.bus.polls.set j { p with slot := { p.slot with failures := min 255 (p.slot.failures + 1) } } }
      lamp := if p.entry.role = .temperature then (tempMissed s.part s.cfg s.lamp).1 else s.lamp } := by
  have hd : s.bus.polls.getD j {} = p := by rw [List.getD_eq_getElem?_getD, h]; rfl
  have he : pollEnd j false o bs s = pollFailed j o s := if_neg ho
  rw [he, pollFailed]
  simp only [hd, updateAt_eq_set h, lampPollFailed_eq]
  split <;> rfl

/-- A transaction that waits for the bus ends, by its owner (R157). -/
theorem faultBus_owner {s : State} {x : Txn} (h : s.bus.state = .waitFree) (hx : s.bus.inHand = some x) :
    faultBus s = match x.owner with
      | .gain v => (gainWriteEnd v .busFault (letGo .idle s)).1
      | .poll j replaced => (pollEnd j replaced .busFault [] (letGo .idle s)).1
      | .host _ => { s with bus := { s.bus.idled with queue := s.bus.queue.tail } } := by
  rw [faultBus, if_pos h, hx]
  rfl

/-- What entry to FAULTED leaves of the bus, the exposure unit and the lamps (R91, R157). -/
def FaultedBus (s t : State) : Prop :=
  let stood := (lampUpdate .faulted s.cfg.stillLevel { s.lamp with boost := false, strobe := false }).1
  let idle := { s.bus with state := .idle, busyTimer := none, inHand := none }
  (s.bus.state ≠ .waitFree → t.bus = s.bus ∧ t.exposure = s.exposure ∧ t.lamp = stood)
  ∧ (s.bus.state = .waitFree → s.bus.inHand = none → t.bus = idle ∧ t.exposure = s.exposure ∧ t.lamp = stood)
  ∧ ∀ x, s.bus.state = .waitFree → s.bus.inHand = some x →
    (∀ h, x.owner = .host h →
      t.bus = { idle with queue := s.bus.queue.tail } ∧ t.exposure = s.exposure ∧ t.lamp = stood)
    ∧ (∀ v, x.owner = .gain v → t.bus = idle ∧ t.exposure = writeFailed s.exposure ∧ t.lamp = stood)
    ∧ (∀ j, x.owner = .poll j true → t.bus = idle ∧ t.exposure = s.exposure ∧ t.lamp = stood)
    ∧ ∀ j p, x.owner = .poll j false → s.bus.polls[j]? = some p → t.exposure = s.exposure
      ∧ (let slot := { p.slot with failures := min 255 (p.slot.failures + 1) }
         t.bus = { idle with polls := s.bus.polls.set j { p with slot := slot } })
      ∧ t.lamp = if p.entry.role = .temperature then (tempMissed .faulted s.cfg stood).1 else stood

theorem faultBus_faulted (s : State) : FaultedBus s (faultBus (faultBlocks s)) := by
  have hbus : (faultBlocks s).bus = s.bus := rfl
  have hlamp : (faultBlocks s).lamp = _ := faultLamp_eq s
  unfold FaultedBus
  refine ⟨fun h => ?_, fun h hn => ?_, fun x h hx => ⟨fun t ho => ?_, fun v ho => ?_, fun j ho => ?_, fun j p ho hp => ?_⟩⟩
  · have he : faultBus (faultBlocks s) = faultBlocks s := if_neg h
    rw [he]
    exact ⟨rfl, rfl, hlamp⟩
  · have he : faultBus (faultBlocks s) = { faultBlocks s with bus := s.bus.idled } := by
      rw [faultBus, hbus, if_pos h, hn]
    rw [he]
    exact ⟨rfl, rfl, hlamp⟩
  all_goals rw [faultBus_owner (s := faultBlocks s) h hx, ho]
  · exact ⟨rfl, rfl, hlamp⟩
  · simp only [gainWriteEnd_failed (o := .busFault) (by decide)]
    exact ⟨rfl, rfl, hlamp⟩
  · exact ⟨rfl, rfl, hlamp⟩
  · have he := pollEnd_failed (o := .busFault) (bs := []) (s := letGo .idle (faultBlocks s)) (by decide) hp
    have hl : (letGo .idle (faultBlocks s)).lamp = _ := hlamp
    rw [hl] at he
    simp only [he]
    exact ⟨rfl, rfl, rfl⟩

theorem video_faulted (v : Video) : v.faulted = if v = .none then .none else .fill false := by
  cases v <;> rfl

theorem startsTimers_iff {s : State} : startsTimers s = true ↔ s.loading.isSome = true ∧ s.cfgTaken = true :=
  Bool.and_eq_true _ _ ▸ Iff.rfl

/-- The link unit at entry to FAULTED (R126, R138). -/
theorem faultLink_eq (s : State) : faultLink s = { s.link with
    queue := s.link.queue.filter fun q => q.host.isNone
    silence := if s.loading.isSome ∧ s.cfgTaken = true then
        (if s.link.state = .lost then none else some (s.now + s.cfg.silenceMs * 1000))
      else s.link.silence } := by
  unfold faultLink
  rw [if_congr startsTimers_iff rfl rfl]

/-- The playout unit at entry to FAULTED (R41, R55). -/
theorem faultPlayout_eq (s : State) : faultPlayout s = { s.playout with
    shown := none, video := if s.playout.video = .none then .none else .fill false
    timer := if s.loading.isSome ∧ s.cfgTaken = true then some (s.now + outputPeriod s.cfg)
      else s.playout.timer } := by
  unfold faultPlayout
  rw [if_congr startsTimers_iff rfl rfl, video_faulted]
  rfl

/-- A part in FAULTED has the drive hold reason NOT_RUNNING (R122). -/
theorem holdOut_of_notRunning {s : State} {c : Chainage} (h : s.chainage = c.setNotRunning true) : holdOut s = true := by
  unfold holdOut
  rw [h]
  rfl

/-- Everything entry to FAULTED leaves (R10), at a moment. -/
theorem memoryError_faults (m : Nat) (s : State) (hp : s.part ≠ .off) (hp' : s.part ≠ .faulted) :
    ∃ t, exec (.memoryError m) s = .next t ∧ t.part = .faulted ∧ t.loading = none
      ∧ t.attention = s.attention ||| attFault ∧ t.chainage = s.chainage.setNotRunning true ∧ holdOut t = true
      ∧ t.list = { s.list with scanning := false, pollTimer := none, handed := none, resyncWaiting := false }
      ∧ t.capture = { s.capture with trig := .idle, plan := none, deadline := none, frame := none }
      ∧ t.still = { s.still with copy := none }
      ∧ t.ring = unpinned s.ring
      ∧ t.link = { s.link with
          queue := s.link.queue.filter fun q => q.host.isNone
          silence := if s.loading.isSome ∧ s.cfgTaken = true then
              (if s.link.state = .lost then none else some (max s.now m + s.cfg.silenceMs * 1000))
            else s.link.silence }
      ∧ t.playout = { s.playout with
          shown := none, video := if s.playout.video = .none then .none else .fill false
          timer := if s.loading.isSome ∧ s.cfgTaken = true then some (max s.now m + outputPeriod s.cfg)
            else s.playout.timer }
      ∧ FaultedBus s t
      ∧ t = { s with
              now := max s.now m, part := .faulted, loading := none, attention := t.attention, list := t.list
              capture := t.capture, ring := t.ring, lamp := t.lamp, exposure := t.exposure, chainage := t.chainage
              link := t.link, bus := t.bus, still := t.still
              playout := t.playout } := by
  have hx : exec (.memoryError m) s = .next (faultBus (faultBlocks (advance m s))) := by
    rw [exec_memoryError hp hp', enterFaulted_eq (s := advance m s) hp hp']
  have hb : FaultedBus s (faultBus (faultBlocks (advance m s))) := faultBus_faulted (advance m s)
  obtain ⟨e, l, b, he⟩ := faultBus_frame (faultBlocks (advance m s))
  rw [he] at hx hb
  exact ⟨_, hx, rfl, rfl, rfl, rfl, rfl, rfl, rfl, rfl, rfl, faultLink_eq _, faultPlayout_eq _, hb, rfl⟩

/-! ## An access that fails, unit by unit -/

/-- A read ends with an error response, or none of its addresses fails. -/
theorem portRead_none_or (a n : Nat) (s : State) :
    portRead a n s = none ∨ ∀ i < n, portOk s.errors (a + i) = true := by
  unfold portRead
  split
  · rename_i h
    rw [Bool.and_eq_true, List.all_eq_true] at h
    exact .inr fun i hi => h.2 i (List.mem_range.2 hi)
  · exact .inl rfl

/-- The error response at a load of the configuration (R5, R10). -/
theorem configurationLoad_fails {m : Nat} {s : State} {l : Loading} (hp : s.part = .loading) (hl : s.loading = some l)
    (hn : l.preparing = false) (h : ∃ i < 256, configAssigns i = true ∧ Fails s (s.workBase.toNat + i)) :
    exec (.configurationLoad m) s = exec (.memoryError m) s := by
  obtain ⟨i, hi, ha, hf⟩ := h
  have hr : portReadSome configAssigns s.workBase.toNat 256 (advance m s) = none :=
    portReadSome_fails (s := advance m s) hi ha hf
  rw [exec_memoryError (by simp [hp]) (by simp [hp])]
  have hx : exec (.configurationLoad m) s = .next (configurationLoadOp l (advance m s)) := by
    simp only [exec, execConfigurationLoad, hl, hn, Bool.false_eq_true, if_false]
  rw [hx, configurationLoadOp, advance_workBase, hr]

/-- The error response at the first two bytes of a slot. -/
theorem scanSlotOp_fails {s : State} (h : portRead (cursorSlot s) 2 s = none) : scanSlotOp s = enterFaulted s := by
  unfold scanSlotOp
  simp only [h]

/-- The error response at a byte of a new request that the scan reads. -/
theorem readRequest_fails {s : State} (hok : ∀ i < 2, portOk s.errors (cursorSlot s + i) = true)
    (h : (∃ i < 8, i ≠ 3 ∧ Fails s (cursorSlot s + i))
      ∨ ∃ i < 48, usesArgument (Memory.read s.mem (cursorSlot s + 2)).toNat i = true ∧ Fails s (cursorSlot s + 16 + i)) :
    readRequest s = enterFaulted s := by
  have kind : portRead (cursorSlot s + 2) 1 s = none
      ∨ portRead (cursorSlot s + 2) 1 s = some [Memory.read s.mem (cursorSlot s + 2)] := by
    unfold portRead
    split
    · exact .inr rfl
    · exact .inl rfl
  unfold readRequest
  simp only
  obtain hk | hk := kind
  · simp only [hk]
  obtain ⟨i, hi, h3, hf⟩ | ⟨i, hi, hu, hf⟩ := h
  · have h01 : ¬ i < 2 := fun h => by
      have := hok i h
      rw [portOk_of_fails hf] at this
      exact Bool.false_ne_true this
    have h2 : i ≠ 2 := by
      rintro rfl
      rw [portRead_fails (i := 0) Nat.one_pos hf] at hk
      exact nomatch hk
    have ht : portRead (cursorSlot s + 4) 4 s = none :=
      portRead_fails (i := i - 4) (by omega) (by rwa [Nat.add_assoc, Nat.add_sub_cancel' (by omega)])
    simp only [hk, ht]
  · cases ht : portRead (cursorSlot s + 4) 4 s with
    | none => simp only [hk]
    | some =>
      have ha := portReadSome_fails (assigned := usesArgument (Memory.read s.mem (cursorSlot s + 2)).toNat)
        (a := cursorSlot s + 16) hi hu hf
      simp only [hk, u8, List.getD_cons_zero, ha]

/-- The error response at a scan (R10, R15). -/
theorem scanSlot_fails {m : Nat} {s : State} (hs : scanReady s = true)
    (h : (∃ i < 2, Fails s (cursorSlot s + i))
      ∨ (Memory.read s.mem (cursorSlot s) = 1 ∧ (Memory.read s.mem (cursorSlot s + 1)).toNat = s.list.reqLap
        ∧ s.list.reqLap < 4 ∧ cursorSlot s ∉ heldSlots s ∧ ((∃ i < 8, i ≠ 3 ∧ Fails s (cursorSlot s + i))
          ∨ ∃ i < 48, usesArgument (Memory.read s.mem (cursorSlot s + 2)).toNat i = true
            ∧ Fails s (cursorSlot s + 16 + i)))) :
    exec (.scanSlot m) s = exec (.memoryError m) s := by
  have hp := (scanReady_iff.1 hs).1
  rw [exec_memoryError (by simp [hp]) (by simp [hp])]
  obtain hn | hok := portRead_none_or (cursorSlot s) 2 s
  · rw [exec_scanSlot hs, scanSlotOp_fails (s := advance m s) hn]
  · obtain ⟨i, hi, hf⟩ | ⟨h1, hl, h4, hh, hf⟩ := h
    · have := hok i hi
      rw [portOk_of_fails hf] at this
      exact nomatch this
    · have hd : lapDistance (Memory.read s.mem (cursorSlot s + 1)).toNat s.list.reqLap = 0 := by
        rw [hl]
        exact lapDistance_same h4
      refine (exec_scanSlot_reached hs hok).trans (congrArg Host.Outcome.next ?_)
      exact (if_neg (by rw [not_or, not_not]; exact ⟨h1, hh⟩)).trans
        ((if_pos hd).trans (readRequest_fails (s := advance m s) hok hf))

/-- The error response at the read index of the event list (R168). -/
theorem emit_fails {e : Event} {s : State} (hw : Working s) (h : ∃ i < 4, Fails s (s.areaBase + 0x280 + i)) :
    emit e s = enterFaulted s := by
  obtain ⟨i, hi, hf⟩ := h
  have hr : portRead (s.areaBase + 0x280) 4 s = none := portRead_fails hi hf
  unfold emit
  obtain hp | hp | hp := hw <;> simp only [hp, hr]

theorem working_of_lit {s : State} (h : s.part.lit = true) : Working s := by
  cases hp : s.part <;> simp [PartState.lit, hp, Working] at h ⊢

/-- The state of a stall that opens, before its event (R49). -/
def stalled (s : State) : State := { s with playout := { s.playout with
  underruns := s.playout.underruns + 1, consec := s.cfg.stallLimit, stallOpen := true, video := .fill true } }

/-- The error response at the event of a stall that opens (R49, R55). -/
theorem underrun_stall_fails {s : State} (hl : s.part.lit = true) (ho : s.playout.stallOpen = false)
    (hn : min 255 (s.playout.consec + 1) = s.cfg.stallLimit) (h : ∃ i < 4, Fails s (s.areaBase + 0x280 + i)) :
    underrun s = enterFaulted (stalled s) := by
  have he : emit (Event.captureStall s.playout.lastShown s.cfg.stallLimit s.capture.los) (stalled s)
      = enterFaulted (stalled s) := emit_fails (s := stalled s) (working_of_lit hl) h
  have hf : (enterFaulted (stalled s)).part = .faulted :=
    enterFaulted_ends (s := stalled s) (by rintro h; simp [PartState.lit, show s.part = .off from h] at hl)
  unfold underrun
  simp only [hn, ho, Bool.false_eq_true, if_false, if_true]
  unfold openStall
  simp only
  exact (congrArg (onward · _) he).trans (onward_faulted hf)

/-- The error response at an edit's buffer (R63). -/
theorem overlayFrame_fails {s : State} {e : Request} {rest : List Request} {a n : Nat} (hw : Working s)
    (he : s.overlay.edits = e :: rest) (hb : editBuffer e = some (a, n)) (h : ∃ i < n, Fails s (a + i)) :
    overlayFrame s = enterFaulted s := by
  obtain ⟨i, hi, hf⟩ := h
  have ha : applyEdits s.overlay.edits s = enterFaulted s := by
    rw [he, applyEdits, hb]
    simp only [portRead_fails hi hf]
  have hp : s.part.lit = true ∨ s.part = .halted := by
    obtain h | h | h := hw <;> simp [h, PartState.lit]
  have hoff : s.part ≠ .off := by obtain h | h | h := hw <;> simp [h]
  unfold overlayFrame
  rw [if_pos hp]
  simp only
  rw [ha, onward_faulted (enterFaulted_ends hoff)]

/-! ### An answer whose slot fails -/

/-- A write leaves every other address, whatever the form of the memory. -/
theorem read_write_ne {a x : Nat} {b : Byte} (h : x ≠ a) : ∀ m : List Host.Cell,
    Memory.read (Memory.write m a b) x = Memory.read m x
  | [] => by
    unfold Memory.write
    split <;> simp [Memory.read, h]
  | (k, v) :: m => by
    have ih := read_write_ne (b := b) h m
    unfold Memory.write
    split
    · split <;> simp [Memory.read, h]
    · split
      · rename_i hk
        subst hk
        split <;> simp [Memory.read, h]
      · simp only [Memory.read, ih]

/-- A write of the part is made where its addresses are reached, else it ends in FAULTED; it leaves the other
addresses. -/
theorem writeFrom_or : ∀ (bs : List Byte) (a : Nat) (s : State), ∃ m,
    (∀ x, ¬ InRange (a, bs.length) x → Memory.read m x = Memory.read s.mem x)
    ∧ (writeFrom a bs s = enterFaulted { s with mem := m }
      ∨ writeFrom a bs s = { s with mem := m } ∧ ∀ i < bs.length, portOk s.errors (a + i) = true)
  | [], _, s => ⟨s.mem, fun _ _ => rfl, .inr ⟨rfl, fun _ h => absurd h (Nat.not_lt_zero _)⟩⟩
  | b :: bs, a, s => by
    by_cases hok : portOk s.errors a = true
    · obtain ⟨m, hr, hc⟩ := writeFrom_or bs (a + 1) { s with mem := Memory.write s.mem a b }
      rw [writeFrom, if_pos hok]
      refine ⟨m, fun x hx => ?_, hc.imp id fun ⟨hm, ha⟩ => ⟨hm, fun i hi => ?_⟩⟩
      · simp only [InRange, List.length_cons] at hx
        exact (hr x (by simp only [InRange]; omega)).trans (read_write_ne (by omega) _)
      · cases i with
        | zero => exact hok
        | succ i => exact Nat.add_right_comm a i 1 ▸ ha i (by simpa using hi)
    · rw [writeFrom, if_neg hok]
      exact ⟨s.mem, fun _ _ => rfl, .inl rfl⟩

theorem not_fails {s : State} {a : Nat} (h : portOk s.errors a = true) : ¬ Fails s a := fun hf => by
  rw [portOk_of_fails hf] at h
  exact nomatch h

/-- A completion of which a byte fails ends in FAULTED; it leaves the state byte of the slot and what lies outside
(R10, R13). -/
theorem complete_fails {slot code w0 w1 : Nat} {s : State} (hp : s.part = .running)
    (h : ∃ i ∈ [0, 3, 8, 9, 10, 11, 12, 13, 14, 15], Fails s (slot + i)) :
    ∃ m, complete slot code w0 w1 s = enterFaulted { s with mem := m } ∧ Memory.read m slot = Memory.read s.mem slot
      ∧ ∀ x, ¬ InRange (slotHead slot) x → Memory.read m x = Memory.read s.mem x := by
  have ends : ∀ (m : List Host.Cell) (k : State → State),
      onward (enterFaulted { s with mem := m }) k = enterFaulted { s with mem := m } := fun m k =>
    onward_faulted (enterFaulted_ends (by simp [hp]))
  have goes : ∀ (m : List Host.Cell) (k : State → State), onward { s with mem := m } k = k { s with mem := m } :=
    fun m k => onward_of_ne (by simp [hp])
  have port : ∀ (a : Nat) (bs : List Byte) (m : List Host.Cell), portWrite a bs { s with mem := m } =
      writeFrom a bs { s with mem := m } := fun a bs m => if_pos (portOpen_running hp)
  have outside : ∀ x, x = slot ∨ ¬ InRange (slotHead slot) x → ¬ InRange (slot + 3, 1) x ∧ ¬ InRange (slot + 8, 8) x := by
    intro x hx
    simp only [InRange, slotHead] at hx ⊢
    omega
  rw [complete, if_neg (by simp [hp])]
  obtain ⟨m, hr, hw | ⟨hw, hok⟩⟩ := writeFrom_or [byte code] (slot + 3) s
  · rw [show portWrite (slot + 3) [byte code] s = _ from (port _ _ s.mem).trans hw, ends]
    exact ⟨m, rfl, hr _ (outside _ (.inl rfl)).1, fun x hx => hr x (outside x (.inr hx)).1⟩
  rw [show portWrite (slot + 3) [byte code] s = _ from (port _ _ s.mem).trans hw, goes]
  obtain ⟨m', hr', hw' | ⟨hw', hok'⟩⟩ := writeFrom_or (le32 w0 ++ le32 w1) (slot + 8) { s with mem := m }
  all_goals
    have kept : ∀ x, x = slot ∨ ¬ InRange (slotHead slot) x → Memory.read m' x = Memory.read s.mem x := fun x hx =>
      (hr' x (outside x hx).2).trans (hr x (outside x hx).1)
  · rw [port, hw', ends]
    exact ⟨m', rfl, kept _ (.inl rfl), fun x hx => kept x (.inr hx)⟩
  rw [port, hw', goes, port]
  by_cases h0 : portOk s.errors slot = true
  · obtain ⟨i, hi, hf⟩ := h
    have ok : ∀ i ∈ [0, 3, 8, 9, 10, 11, 12, 13, 14, 15], portOk s.errors (slot + i) = true := by
      have hw : ∀ i < 8, portOk s.errors (slot + (8 + i)) = true := fun i hi => Nat.add_assoc slot 8 i ▸ hok' i hi
      have hc : portOk s.errors (slot + 3) = true := hok 0 Nat.one_pos
      simp only [List.forall_mem_cons]
      exact ⟨h0, hc, hw 0 (by decide), hw 1 (by decide), hw 2 (by decide), hw 3 (by decide), hw 4 (by decide),
        hw 5 (by decide), hw 6 (by decide), hw 7 (by decide), fun _ h => nomatch h⟩
    exact absurd hf (not_fails (ok i hi))
  · rw [show writeFrom slot [3] { s with mem := m' } = enterFaulted { s with mem := m' } from if_neg h0, ends]
    exact ⟨m', rfl, kept _ (.inl rfl), fun x hx => kept x (.inr hx)⟩

/-- What a request of this kind does at its hand-over, but for what only other blocks see, is to answer. -/
def OnlyAnswers (f : Request → State → State) (r : Request) (s : State) : Prop :=
  ∃ code w0 w1 u, f r (released s) = complete r.slot code w0 w1 u ∧ u.part = s.part ∧ u.errors = s.errors
    ∧ u.mem = s.mem ∧ u.attention = s.attention ∧ u.list.evIndex = s.list.evIndex

theorem chainageCalibrate_onlyAnswers (r : Request) (s : State) : OnlyAnswers chainageCalibrateOp r s := by
  unfold OnlyAnswers chainageCalibrateOp
  split <;> exact ⟨_, _, _, _, rfl, rfl, rfl, rfl, rfl, rfl⟩

theorem driveHold_onlyAnswers (r : Request) (s : State) : OnlyAnswers driveHoldOp r s := by
  unfold OnlyAnswers driveHoldOp
  split <;> exact ⟨_, _, _, _, rfl, rfl, rfl, rfl, rfl, rfl⟩

theorem latchClear_onlyAnswers (r : Request) (s : State) : OnlyAnswers latchClearOp r s := by
  unfold OnlyAnswers latchClearOp
  split <;> exact ⟨_, _, _, _, rfl, rfl, rfl, rfl, rfl, rfl⟩

/-- What a request leaves whose answer fails: FAULTED, the request out of hand and unanswered (R10). -/
theorem handOver_fails {k : Nat} {r : Request} {f : Request → State → State} {s : State} {c : Instr}
    (hx : exec c s = .next (handOverKind k f s)) (ha : OnlyAnswers f r s)
    (hp : s.part = .running) (hh : s.list.handed = some r) (hk : r.kind = k)
    (h : ∃ i ∈ [0, 3, 8, 9, 10, 11, 12, 13, 14, 15], Fails s (r.slot + i)) :
    ∃ t, exec c s = .next t ∧ t.part = .faulted ∧ t.attention = s.attention ||| attFault
      ∧ Memory.read t.mem r.slot = Memory.read s.mem r.slot ∧ SameOutside [slotHead r.slot] s t
      ∧ t.list.handed = none ∧ t.list.evIndex = s.list.evIndex := by
  obtain ⟨code, w0, w1, u, hf, hu, he, hm, ha, hi⟩ := ha
  have hu := hu.trans hp
  have hfu : ∃ i ∈ [0, 3, 8, 9, 10, 11, 12, 13, 14, 15], Fails u (r.slot + i) := by
    unfold Fails at h ⊢
    rwa [he]
  obtain ⟨m, hc, h0, hr⟩ := complete_fails (code := code) (w0 := w0) (w1 := w1) hu hfu
  have hn : ∀ p : PartState, u.part = p → p ≠ .off ∧ p ≠ .faulted := by
    rintro p rfl
    simp [hu]
  have ho : handOverKind k f s = finishHand (enterFaulted { u with mem := m }) := by
    simp only [handOverKind, handOver, hh, hk, beq_self_eq_true, if_true]
    exact congrArg finishHand (hf.trans hc)
  obtain ⟨e, l, b, hb⟩ := faultBus_frame (faultBlocks { u with mem := m })
  have hd := (enterFaulted_eq (s := { u with mem := m }) (hn _ rfl).1 (hn _ rfl).2).trans hb
  refine ⟨_, hx.trans (congrArg Host.Outcome.next ho), ?_⟩
  rw [hd]
  refine ⟨rfl, congrArg (· ||| attFault) ha, h0.trans (by rw [hm]), fun x hxr => ?_, rfl, hi⟩
  exact (hr x (hxr _ (List.mem_singleton_self _))).trans (by rw [hm])

/-- Settles O12. -/
theorem memoryErrorEntersFaulted : Obligations.MemoryErrorEntersFaulted := by
  intro m s
  refine ⟨fun h => congrArg Host.Outcome.next (if_pos h), memoryError_faults m s,
    fun l hp hl hn h => configurationLoad_fails hp hl hn h, fun hs => scanSlot_fails hs, fun e hw h => ?_,
    fun hl hc ho hn h => ?_, fun e rest a n hw he hb h => ?_, fun k c r hkc hp hh hk h => ?_⟩
  · have hne := ne_faulted_of_working hw
    have hoff : s.part ≠ .off := by obtain h | h | h := hw <;> simp [h]
    rw [exec_memoryError hoff hne, advance_zero, emit_fails hw h]
  · have hu := underrun_stall_fails hl ho hn h
    have hoff : s.part ≠ .off := fun h => by simp [h, PartState.lit] at hl
    have hne := ne_faulted_of_working (working_of_lit hl)
    have hs : stallNext s = true := by simp [stallNext, hl, ho, hn, hc, bestCandidate]
    have hx : exec .captureStall s = .next (underrun s) := congrArg Host.Outcome.next (if_pos hs)
    have hb : blockFrame .playout s = underrun s := by
      have hsel : selectShown 16 [] s = underrun s := by rw [selectShown, hc]; rfl
      show playoutFrame s = underrun s
      unfold playoutFrame
      cases hp : s.part <;> simp [PartState.lit, hp] at hl ⊢ <;> exact hsel
    obtain ⟨t, ht, hf, -, -, -, -, -, -, -, -, -, hplay, -⟩ := memoryError_faults 0 (stalled s) hoff hne
    have he : t = enterFaulted (stalled s) := by
      rw [exec_memoryError (s := stalled s) hoff hne, advance_zero] at ht
      exact (Host.Outcome.next.inj ht).symm
    refine ⟨t, by rw [hx, hu, he], by rw [hb, hu, he], ht, hf, ?_⟩
    rw [hplay]
    exact ⟨rfl, rfl, rfl⟩
  · have hne := ne_faulted_of_working hw
    have hoff : s.part ≠ .off := by obtain h | h | h := hw <;> simp [h]
    rw [exec_memoryError hoff hne, advance_zero]
    exact congrArg Host.Outcome.next (overlayFrame_fails hw he hb h).symm
  · simp only [List.mem_cons, Prod.mk.injEq, List.not_mem_nil, or_false] at hkc
    obtain ⟨rfl, rfl⟩ | ⟨rfl, rfl⟩ | ⟨rfl, rfl⟩ := hkc
    · exact handOver_fails rfl (chainageCalibrate_onlyAnswers r s) hp hh hk h
    · exact handOver_fails rfl (driveHold_onlyAnswers r s) hp hh hk h
    · exact handOver_fails rfl (latchClear_onlyAnswers r s) hp hh hk h

end Sys2Proof.Proofs

namespace Sys2Proof.Proofs

open Sys2Proof.Machine Sys2Proof.Safety Sys2Proof.Laws

/-! ## Operations on a state split into what acts change and the rest

`put w v` has its memory, attention bits and list engine from `w` and everything else from `v`. An operation of a block
does its acts on `w` and changes the block's record in `v`. -/

/-- The regions of `w` can be reached, and `v` gives an event what `w` gives it. -/
structure Ready (w v : State) : Prop where
  regions : RegionsOk w
  working : Working w
  alike : Alike w v

theorem ready_self {s : State} (h : RegionsOk s) (hw : Working s) : Ready s s := ⟨h, hw, { working := hw }⟩

theorem Ready.acts {w v : State} (h : Ready w v) (as : List Act) : Ready (as.foldl act w) v :=
  have ha := acted_acts (as := as) h.regions h.working
  ⟨ha.regionsOk h.regions, ha.working h.working, ha.alike h.alike⟩

/-- The rest may change in every way an event does not see. -/
theorem Ready.change {w v u : State} (h : Ready w v) (he : u.errors = v.errors := by rfl)
    (ha : u.areaBase = v.areaBase := by rfl) (hc : u.cfg = v.cfg := by rfl)
    (hf : u.playout.frames = v.playout.frames := by rfl) (hx : u.chainage.x = v.chainage.x := by rfl)
    (hp : u.part = v.part := by rfl) : Ready w u where
  regions := h.regions
  working := h.working
  alike := ⟨he.trans h.alike.errors, ha.trans h.alike.areaBase, hc.trans h.alike.cfg, hf.trans h.alike.frames,
    hx.trans h.alike.x, by unfold Working; rw [hp]; exact h.alike.working⟩

theorem Ready.ne_faulted {w v : State} (h : Ready w v) : (put w v).part ≠ .faulted :=
  ne_faulted_of_working (s := put w v) h.alike.working

theorem onward_ready {w v : State} (h : Ready w v) (k : State → State) : onward (put w v) k = k (put w v) :=
  onward_of_ne h.ne_faulted

theorem emit_ready {w v : State} (h : Ready w v) (e : Event) : emit e (put w v) = put (act w (.event e)) v :=
  emit_put h.regions h.working h.alike

theorem complete_ready {w v : State} (h : Ready w v) {slot : Nat} (hs : slot + 64 ≤ 2 ^ 32) (code w0 w1 : Nat) :
    complete slot code w0 w1 (put w v) = put (act w (.answer slot code w0 w1)) v :=
  complete_working (s := put w v) h.alike.working (h.alike.errors.trans h.regions.2.1) hs

theorem emitAll_ready {w v : State} (h : Ready w v) (es : List Event) :
    emitAll es (put w v) = put ((events es).foldl act w) v :=
  (emitAll_eq es _).trans (acts_put h.regions h.working h.alike)

theorem lampDo_ready {w v : State} (h : Ready w v) (r : Lamp × List Event) :
    lampDo r (put w v) = put ((events r.2).foldl act w) { v with lamp := r.1 } :=
  emitAll_ready (v := { v with lamp := r.1 }) h.change r.2

/-! ## The end of a HALT -/

/-- Entry to HALTED but for its events (R9, R54, R91). -/
def halted (s : State) : State := { s with
  part := .halted, lamp := (haltedLamp s).1, ring := unpinned s.ring
  playout := { s.playout with shown := none }, chainage := s.chainage.setNotRunning true }

theorem lampEnter_halted (s : State) : lampEnter .halted s.cfg s.lamp = haltedLamp s := by
  have hl : PartState.halted.lit = false := rfl
  simp only [lampEnter, haltedLamp, hl, Bool.and_false]

theorem settleHalt_ready {w v : State} (h : Ready w v) : settleHalt (put w v) =
    if v.part = .halting ∧ inFlight (put w v) = false then put ((events (haltedLamp v).2).foldl act w) (halted v)
    else put w v := by
  unfold settleHalt
  split
  · rename_i hs
    refine (?_ : _ = _).trans (if_pos hs).symm
    have hv : Ready w (dropPlayPin (setPart .halted v)) :=
      ⟨h.regions, h.working, ⟨h.alike.errors, h.alike.areaBase, h.alike.cfg, h.alike.frames, h.alike.x, .inr (.inr rfl)⟩⟩
    have he : enterHalted (put w v) = lampDo (lampEnter .halted v.cfg v.lamp) (put w (dropPlayPin (setPart .halted v))) := rfl
    rw [he, lampDo_ready hv, lampEnter_halted]
    rfl
  · rename_i hs
    exact (if_neg hs).symm

/-- The end of a HALT as `settled` states it. -/
theorem settled_eq {s : State} (h : RegionsOk s) (hw : Working s) : settled s =
    if s.part = .halting ∧ inFlight s = false then put ((events (haltedLamp s).2).foldl act s) (halted s) else s := by
  have hf := (acted_acts (as := events (haltedLamp s).2) h hw).frame
  unfold settled
  split
  · generalize (events (haltedLamp s).2).foldl act s = w at hf ⊢
    rw [hf]
    rfl
  · rfl

theorem settleHalt_settled {s : State} (h : RegionsOk s) (hw : Working s) : settleHalt s = settled s :=
  (settleHalt_ready (ready_self h hw)).trans (settled_eq h hw).symm

/-! ## HALT -/

theorem abortTransfers_ready : ∀ {xs : List HostTransfer} {w v : State}, Ready w v → (∀ x ∈ xs, x.slot + 64 ≤ 2 ^ 32) →
    abortTransfers xs (put w v) = put ((xs.map fun h => Act.answer h.slot 9 0 0).foldl act w) v
  | [], _, _, _, _ => rfl
  | x :: xs, w, v, h, hs => by
    have h' := h.acts [.answer x.slot 9 0 0]
    rw [abortTransfers, complete_ready h (hs x List.mem_cons_self)]
    exact (onward_ready h' _).trans (abortTransfers_ready h' fun y hy => hs y (List.mem_cons_of_mem _ hy))

/-- The end of an order that gave no still is one act. -/
theorem orderFailed_ready {w v : State} (h : Ready w v) {o : StillOrder} (hs : ∀ a ∈ o.origin.slot?, a + 64 ≤ 2 ^ 32)
    (code w0 cause entry : Nat) : orderFailed o code w0 o.frameSeq.toNat cause entry (put w v)
      = put (act w (lostOrder o.origin code w0 cause entry o.frameSeq)) v := by
  unfold orderFailed lostOrder
  cases ho : o.origin with
  | snapshot slot => exact complete_ready h (hs slot (by rw [ho]; rfl)) code w0 _
  | mark | stop => exact emit_ready h _

/-- A still order that a HALT ends (R165). -/
def abortedOrder (o : StillOrder) : Act := lostOrder o.origin 9 0 5 0xFF o.frameSeq

theorem abortOrders_ready : ∀ {os : List StillOrder} {w v : State}, Ready w v → v.still.orders = os →
    (∀ o ∈ os, ∀ a ∈ o.origin.slot?, a + 64 ≤ 2 ^ 32) →
    abortOrders os (put w v) = put ((os.map abortedOrder).foldl act w) { v with still := { v.still with orders := [] } }
  | [], w, v, _, ho, _ => by
    have hv : { v with still := { v.still with orders := [] } } = v := by rw [← ho]
    rw [hv]
    rfl
  | o :: os, w, v, h, _, hs => by
    have hv : Ready w { v with still := { v.still with orders := os } } := h.change
    have h' := hv.acts [abortedOrder o]
    have he := orderFailed_ready hv (hs o List.mem_cons_self) 9 0 5 0xFF
    have ih := abortOrders_ready h' rfl fun p hp => hs p (List.mem_cons_of_mem _ hp)
    exact (congrArg (onward · (abortOrders os)) he).trans ((onward_ready h' _).trans ih)

theorem abortUplinks_ready : ∀ {ms : List UplinkMsg} {w v : State}, Ready w v →
    (∀ a ∈ ms.filterMap (·.host), a + 64 ≤ 2 ^ 32) →
    abortUplinks ms (put w v) = put (((ms.filterMap (·.host)).map fun a => Act.answer a 9 0 0).foldl act w) v
  | [], _, _, _, _ => rfl
  | m :: ms, w, v, h, hs => by
    cases hm : m.host with
    | none =>
      rw [List.filterMap_cons_none hm] at hs ⊢
      rw [abortUplinks, hm]
      exact abortUplinks_ready h hs
    | some a =>
      rw [List.filterMap_cons_some hm] at hs ⊢
      have h' := h.acts [.answer a 9 0 0]
      rw [abortUplinks, hm]
      simp only
      rw [complete_ready h (hs a List.mem_cons_self) rcAborted]
      exact (onward_ready h' _).trans (abortUplinks_ready h' fun y hy => hs y (List.mem_cons_of_mem _ hy))

/-- The list engine at HALT (R8): the poll timer stops, and a scan with no slot in hand ends. -/
def haltedList (s : State) : State := { s with list := { s.list with
  pollTimer := none, scanning := s.list.scanning && s.list.handed.isSome } }

/-- The lamp update at HALT. -/
def haltLamp (s : State) : Lamp × List Event := lampUpdate .halting s.cfg.stillLevel s.lamp

/-- The answers and reports of the work that a HALT ends, in their order (R8, R138, R157, R165). -/
def haltAborts (s : State) : List Act :=
  (waitingTransfers s.bus).map (fun h => Act.answer h.slot 9 0 0) ++ s.still.orders.map abortedOrder
    ++ (s.link.queue.filterMap (·.host)).map fun a => Act.answer a 9 0 0

/-- The slots of the requests that a HALT ends. -/
def endedSlots (s : State) : List Nat :=
  (waitingTransfers s.bus).map (·.slot) ++ s.still.orders.filterMap (·.origin.slot?) ++ s.link.queue.filterMap (·.host)

/-- The capture unit at HALT (R38). -/
def haltedCapture (c : Capture) : Capture :=
  if c.trig = .waiting ∨ c.trig = .deferred then { c with trig := .idle, plan := none, deferralOpen := false } else c

/-- The exposure unit at HALT (R105). -/
def haltedExposure (e : Exposure) : Exposure :=
  match e.gws with
  | .idle => e
  | .queued => { e with gws := .idle, handedGain := none }
  | .writing => { e with handedGain := some e.busGain, behind := false }

theorem haltCapture_eq (s : State) : haltCapture s = { s with capture := haltedCapture s.capture } := by
  unfold haltCapture haltedCapture
  split <;> rfl

/-- The blocks in HALTING before any event or answer. -/
def quieted (s : State) : State := { s with
  part := .halting, chainage := s.chainage.setNotRunning true, capture := haltedCapture s.capture
  exposure := haltedExposure s.exposure, bus := { s.bus with pendingGain := none } }

theorem haltQuiet_eq (s : State) : haltQuiet s = put (haltedList s) (quieted s) := by
  rw [haltQuiet, haltCapture_eq]
  rfl

/-- The blocks once the lamps are updated and the waiting transfers are out of their queue. -/
def emptied (s : State) : State := { quieted s with
  lamp := (haltLamp s).1
  bus := { s.bus with pendingGain := none, queue := if transferInHand s.bus then s.bus.queue.take 1 else [] } }

/-- What a HALT leaves of everything but memory, attention bits and list engine, before the part is HALTED. -/
def halting (s : State) : State := { emptied s with
  still := { s.still with orders := [] }
  link := { s.link with queue := s.link.queue.filter fun q => q.host.isNone } }

theorem lampEnter_halting (s : State) : lampEnter .halting s.cfg s.lamp = haltLamp s := by
  have hl : PartState.halting.lit = true := rfl
  simp only [lampEnter, haltLamp, hl, Bool.and_true]

theorem ready_halting {s : State} (hp : s.part = .running) (hr : RegionsOk s) : Ready (haltedList s) (halting s) :=
  ⟨hr, .inl hp, { working := .inr (.inl rfl) }⟩

/-- A HALT under reachable regions: the lamp update's event and the ends of the waiting work, then the end of the HALT
where nothing is in flight (R8). -/
theorem haltOp_ready {s : State} (hp : s.part = .running) (hr : RegionsOk s)
    (hs : ∀ a ∈ endedSlots s, a + 64 ≤ 2 ^ 32) :
    haltOp s = settleHalt (put ((events (haltLamp s).2 ++ haltAborts s).foldl act (haltedList s)) (halting s)) := by
  have h0 : Ready (haltedList s) (quieted s) := (ready_halting hp hr).change
  have e1 : lampEnterState (haltQuiet s) = put ((events (haltLamp s).2).foldl act (haltedList s))
      { quieted s with lamp := (haltLamp s).1 } := by
    rw [haltQuiet_eq, lampEnterState]
    exact (congrArg (lampDo · _) (lampEnter_halting s)).trans (lampDo_ready h0 (haltLamp s))
  have r1 := (ready_halting hp hr).acts (events (haltLamp s).2)
  generalize hw1 : (events (haltLamp s).2).foldl act (haltedList s) = w1 at e1 r1
  have e2 := abortTransfers_ready (xs := waitingTransfers s.bus) (v := emptied s) r1.change fun x hx => hs _ (List.mem_append_left _ (List.mem_append_left _ (List.mem_map_of_mem hx)))
  have r2 := r1.acts ((waitingTransfers s.bus).map fun h => Act.answer h.slot 9 0 0)
  generalize hw2 : ((waitingTransfers s.bus).map fun h => Act.answer h.slot 9 0 0).foldl act w1 = w2 at e2 r2
  have e3 := abortOrders_ready (os := s.still.orders) (v := emptied s) r2.change rfl fun o ho a ha => hs _ (List.mem_append_left _ (List.mem_append_right _ (List.mem_filterMap.2 ⟨o, ho, ha⟩)))
  have r3 := r2.acts (s.still.orders.map abortedOrder)
  generalize hw3 : (s.still.orders.map abortedOrder).foldl act w2 = w3 at e3 r3
  have e4 := abortUplinks_ready (ms := s.link.queue) (v := halting s) r3 fun a ha => hs _ (List.mem_append_right _ ha)
  have r4 := r3.acts ((s.link.queue.filterMap (·.host)).map fun a => Act.answer a 9 0 0)
  have hw : (events (haltLamp s).2 ++ haltAborts s).foldl act (haltedList s) =
      ((s.link.queue.filterMap (·.host)).map fun a => Act.answer a 9 0 0).foldl act w3 := by
    simp only [haltAborts, List.foldl_append, hw1, hw2, hw3]
  rw [hw]
  calc haltOp s
      = onward (lampEnterState (haltQuiet s)) fun t => onward (haltBus t) fun t => onward (haltStill t) fun t =>
          onward (haltLink t) settleHalt := rfl
    _ = onward (haltBus (put w1 { quieted s with lamp := (haltLamp s).1 })) fun t => onward (haltStill t) fun t =>
          onward (haltLink t) settleHalt := by rw [e1]; exact onward_ready r1.change _
    _ = onward (haltStill (put w2 (emptied s))) fun t => onward (haltLink t) settleHalt :=
      (congrArg (onward · _) e2).trans (onward_ready r2.change _)
    _ = onward (haltLink (put w3 { halting s with link := s.link })) settleHalt :=
      (congrArg (onward · _) e3).trans (onward_ready r3.change _)
    _ = settleHalt _ := (congrArg (onward · _) e4).trans (onward_ready r4 _)

/-! ### What a HALT leaves in memory -/

/-- The slot holds DONE and ABORTED. -/
def AbortedAt (a : Nat) (s : State) : Prop := Memory.read s.mem a = 3 ∧ Memory.read s.mem (a + 3) = 9

/-- An act that leaves a slot answered ABORTED so. -/
def Spares (a : Nat) (s : State) : Act → Prop
  | .event _ => Apart (slotHead a) (eventList s)
  | .answer b code _ _ => b = a ∧ code = 9 ∨ b + 16 ≤ a ∨ a + 16 ≤ b
  | .store _ _ => False
  | .attention _ => True

theorem aborts_of_answer {a w0 w1 : Nat} {s : State} (h : RegionsOk s) : AbortedAt a (act s (.answer a 9 w0 w1)) :=
  have ha := answered_holds (slot := a) (code := 9) (w0 := w0) (w1 := w1) h.1
  ⟨ha.1, ha.2.1⟩

theorem spares_act {a : Nat} {s : State} {x : Act} (h : RegionsOk s) (hw : Working s) (hx : Spares a s x)
    (ha : AbortedAt a s) : AbortedAt a (act s x) := by
  have outside : (∀ r ∈ actRange s x, ¬ InRange r a ∧ ¬ InRange r (a + 3)) → AbortedAt a (act s x) := fun hr =>
    ⟨(act_sameOutside h hw a fun r hm => (hr r hm).1).trans ha.1,
      (act_sameOutside h hw (a + 3) fun r hm => (hr r hm).2).trans ha.2⟩
  cases x with
  | event e =>
    have hs : ∀ i < 16, InRange (slotHead a) (a + i) := fun i hi => by simp only [InRange, slotHead]; omega
    refine outside fun r hr => ?_
    rw [List.mem_singleton.1 hr]
    exact ⟨hx _ (hs 0 (by decide)), hx _ (hs 3 (by decide))⟩
  | answer b code w0 w1 =>
    obtain ⟨rfl, rfl⟩ | hb := hx
    · exact aborts_of_answer h
    · refine outside fun r hr => ?_
      rw [List.mem_singleton.1 hr]
      simp only [InRange, slotHead]
      omega
  | store => exact hx.elim
  | attention => exact outside fun r hr => nomatch hr

theorem spares_acted {a : Nat} {s t : State} {x : Act} (h : Acted s t) (hx : Spares a s x) : Spares a t x := by
  have he : eventList t = eventList s := by rw [h.frame]; rfl
  cases x with
  | event => rw [Spares, he]; exact hx
  | answer | store | attention => exact hx

/-- Once a slot has been answered ABORTED, acts that spare it leave it so. -/
theorem acts_aborted {a : Nat} : ∀ {as : List Act} {s : State}, RegionsOk s → Working s → (∀ x ∈ as, Spares a s x) →
    (AbortedAt a s ∨ ∃ w0 w1, Act.answer a 9 w0 w1 ∈ as) → AbortedAt a (as.foldl act s)
  | [], _, _, _, _, ha => ha.resolve_right fun ⟨_, _, h⟩ => nomatch h
  | x :: as, s, h, hw, hx, ha => by
    have hd := acted_act (a := x) h hw
    refine acts_aborted (as := as) (s := act s x) (hd.regionsOk h) (hd.working hw)
      (fun y hy => spares_acted hd (hx y (List.mem_cons_of_mem _ hy))) ?_
    obtain ha | ⟨w0, w1, hm⟩ := ha
    · exact .inl (spares_act h hw (hx x List.mem_cons_self) ha)
    · obtain rfl | hm := List.mem_cons.1 hm
      · exact .inl (aborts_of_answer h)
      · exact .inr ⟨w0, w1, hm⟩

/-- An event, or an answer ABORTED to one of these slots. -/
def AbortsIn (slots : List Nat) (x : Act) : Prop :=
  (∃ e, x = .event e) ∨ ∃ b ∈ slots, ∃ w0 w1, x = .answer b 9 w0 w1

theorem haltAborts_in {s : State} {x : Act} (hx : x ∈ haltAborts s) : AbortsIn (endedSlots s) x := by
  simp only [haltAborts, List.mem_append, List.mem_map] at hx
  obtain (⟨h, hm, rfl⟩ | ⟨o, hm, rfl⟩) | ⟨a, hm, rfl⟩ := hx
  · exact .inr ⟨_, List.mem_append_left _ (List.mem_append_left _ (List.mem_map_of_mem hm)), _, _, rfl⟩
  · unfold abortedOrder lostOrder
    cases ho : o.origin with
    | snapshot slot =>
      exact .inr ⟨slot, List.mem_append_left _ (List.mem_append_right _ (List.mem_filterMap.2 ⟨o, hm, by rw [ho]; rfl⟩)), _, _, rfl⟩
    | mark | stop => exact .inl ⟨_, rfl⟩
  · exact .inr ⟨a, List.mem_append_right _ hm, _, _, rfl⟩

/-- Every request that a HALT ends is answered ABORTED. -/
theorem haltAborts_answers {s : State} {a : Nat} (ha : a ∈ endedSlots s) : ∃ w0 w1, Act.answer a 9 w0 w1 ∈ haltAborts s := by
  simp only [endedSlots, List.mem_append] at ha
  obtain (ha | ha) | ha := ha
  · obtain ⟨h, hm, rfl⟩ := List.mem_map.1 ha
    exact ⟨_, _, List.mem_append_left _ (List.mem_append_left _ (List.mem_map.2 ⟨h, hm, rfl⟩))⟩
  · obtain ⟨o, hm, ho⟩ := List.mem_filterMap.1 ha
    have hx : abortedOrder o = .answer a 9 0 o.frameSeq.toNat := by
      rw [abortedOrder, slot?_eq_some.1 ho]
      rfl
    exact ⟨_, _, List.mem_append_left _ (List.mem_append_right _ (List.mem_map.2 ⟨o, hm, hx⟩))⟩
  · exact ⟨_, _, List.mem_append_right _ (List.mem_map.2 ⟨a, ha, rfl⟩)⟩

/-- Every act of a HALT. -/
def haltActs (inFlight : Bool) (s : State) : List Act :=
  events (haltLamp s).2 ++ haltAborts s ++ if inFlight then [] else events (haltedLamp { s with lamp := (haltLamp s).1 }).2

theorem haltActs_in {s : State} {f : Bool} {x : Act} (hx : x ∈ haltActs f s) : AbortsIn (endedSlots s) x := by
  have ev : ∀ {es : List Event}, x ∈ events es → AbortsIn (endedSlots s) x := fun h => by
    obtain ⟨e, -, rfl⟩ := List.mem_map.1 h
    exact .inl ⟨e, rfl⟩
  simp only [haltActs, List.mem_append] at hx
  obtain (hx | hx) | hx := hx
  · exact ev hx
  · exact haltAborts_in hx
  · cases f with
    | true => exact nomatch hx
    | false => exact ev hx

theorem abortsIn_range {slots : List Nat} {s : State} {x : Act} (hx : AbortsIn slots x) :
    ∀ r ∈ actRange s x, r ∈ eventList s :: slots.map slotHead := by
  intro r hr
  obtain ⟨e, rfl⟩ | ⟨b, hb, w0, w1, rfl⟩ := hx <;> rw [List.mem_singleton.1 hr]
  · exact List.mem_cons_self
  · exact List.mem_cons_of_mem _ (List.mem_map_of_mem hb)

theorem abortsIn_spares {slots : List Nat} {a : Nat} {s : State} {x : Act} (hx : AbortsIn slots x)
    (hb : ∀ b ∈ slots, b = a ∨ b + 16 ≤ a ∨ a + 16 ≤ b) (ha : Apart (slotHead a) (eventList s)) : Spares a s x := by
  obtain ⟨e, rfl⟩ | ⟨b, hm, w0, w1, rfl⟩ := hx
  · exact ha
  · exact (hb b hm).imp (fun h => ⟨h, rfl⟩) id

/-! ### The state after a HALT -/

theorem inFlight_iff (u : State) : inFlight u = true ↔ u.list.scanning = true ∨ u.list.handed.isSome = true
    ∨ u.capture.trig ∈ [.exposing, .readout] ∨ u.still.copy.isSome = true ∨ u.bus.inHand.isSome = true
    ∨ u.bus.state = .recovery ∨ u.link.sending.isSome = true := by
  simp only [inFlight, Bool.or_eq_true, beq_iff_eq, List.mem_cons, List.not_mem_nil, or_false, or_assoc]

/-- Work in flight is told by the list engine but for its event cursor. -/
theorem inFlight_acted {w x v : State} (h : Acted w x) : inFlight (put x v) = inFlight (put w v) := by
  have hl := h.list_eq
  generalize x.list.evIndex = i at hl
  generalize x.list.evLap = l at hl
  generalize x.list.missed = m at hl
  simp only [inFlight, put_list, hl]
  rfl

/-- A HALT leaves `halting`, or with nothing in flight `halted` after it, with its acts done (R8, R9). -/
theorem haltOp_eq {s : State} (hp : s.part = .running) (hr : RegionsOk s) (hs : ∀ a ∈ endedSlots s, a + 64 ≤ 2 ^ 32) :
    ∃ f, haltOp s = put ((haltActs f s).foldl act (haltedList s)) (if f then halting s else halted (halting s))
      ∧ inFlight (haltOp s) = f := by
  have h0 := ready_halting hp hr
  have hw := h0.acts (events (haltLamp s).2 ++ haltAborts s)
  have ho := (haltOp_ready hp hr hs).trans (settleHalt_ready hw)
  have hon : (haltActs true s).foldl act (haltedList s) = (events (haltLamp s).2 ++ haltAborts s).foldl act (haltedList s) :=
    congrArg (List.foldl act (haltedList s)) (List.append_nil _)
  have hoff : (haltActs false s).foldl act (haltedList s) = (events (haltedLamp (halting s)).2).foldl act
      ((events (haltLamp s).2 ++ haltAborts s).foldl act (haltedList s)) := List.foldl_append
  generalize (events (haltLamp s).2 ++ haltAborts s).foldl act (haltedList s) = w at hw ho hon hoff
  cases hf : inFlight (put w (halting s)) with
  | true =>
    rw [if_neg fun h => Bool.false_ne_true (h.2.symm.trans hf)] at ho
    exact ⟨true, by rw [ho, hon]; rfl, by rw [ho, hf]⟩
  | false =>
    rw [if_pos ⟨rfl, hf⟩] at ho
    have hd := acted_acts (as := events (haltedLamp (halting s)).2) hw.regions hw.working
    refine ⟨false, by rw [ho, hoff]; rfl, ?_⟩
    rw [ho]
    exact (inFlight_acted (v := halted (halting s)) hd).trans hf

/-- No transfer is left waiting. -/
theorem waitingTransfers_emptied (b : Bus) : waitingTransfers { b with
    pendingGain := none, queue := if transferInHand b then b.queue.take 1 else [] } = [] := by
  cases h : transferInHand b with
  | true =>
    have : transferInHand { b with pendingGain := none, queue := b.queue.take 1 } = true := h
    rw [waitingTransfers, if_pos (by exact this)]
    cases b.queue <;> rfl
  | false =>
    have : transferInHand { b with pendingGain := none, queue := [] } = false := h
    exact if_neg (by rw [Bool.not_eq_true]; exact this)

theorem haltedCapture_planned {c : Capture} (h : c.trig = .waiting ∨ c.trig = .deferred) :
    haltedCapture c = { c with trig := .idle, plan := none, deferralOpen := false } := if_pos h

theorem haltedCapture_other {c : Capture} (h : c.trig = .exposing ∨ c.trig = .readout ∨ c.trig = .idle) :
    haltedCapture c = c := if_neg (by obtain h | h | h := h <;> simp [h])

/-- Settles O9. -/
theorem haltEndsWaitingWork : Obligations.HaltEndsWaitingWork := by
  intro s hp hr ended hs first second aborts e
  obtain ⟨f, ht, hf⟩ := haltOp_eq hp hr hs
  have hx : exec .halt s = .next (haltOp s) := congrArg Host.Outcome.next (if_pos hp)
  have hw : Working (haltedList s) := .inl hp
  have hd : Acted (haltedList s) ((haltActs f s).foldl act (haltedList s)) := acted_acts hr hw
  have hmem : ∀ a ∈ ended, (∀ b ∈ ended, b = a ∨ b + 16 ≤ a ∨ a + 16 ≤ b) → Apart (slotHead a) (eventList s) →
      AbortedAt a ((haltActs f s).foldl act (haltedList s)) := fun a ha hb hap => by
    obtain ⟨w0, w1, hm⟩ := haltAborts_answers ha
    exact acts_aborted hr hw (fun x hx => abortsIn_spares (haltActs_in hx) hb hap)
      (.inr ⟨w0, w1, List.mem_append_left _ (List.mem_append_right _ hm)⟩)
  have hout : SameOutside (eventList s :: ended.map slotHead) (haltedList s) ((haltActs f s).foldl act (haltedList s)) :=
    sameOutside_mono (fun r hr => by
      obtain ⟨x, hx, hr⟩ := List.mem_flatMap.1 hr
      exact abortsIn_range (s := haltedList s) (haltActs_in hx) r hr) (acts_sameOutside (s := haltedList s) hr hw)
  refine ⟨haltOp s, hx, inFlight_iff, ?_⟩
  simp only [hf]
  rw [ht]
  have hcap : (if f then halting s else halted (halting s)).capture = haltedCapture s.capture := by cases f <;> rfl
  have hq := waitingTransfers_emptied s.bus
  refine ⟨?_, ?_, fun h => ?_, fun h => ?_, ?_⟩
  · rintro rfl; rfl
  · rintro rfl; rfl
  · rw [put, hcap, haltedCapture_planned h]
    exact ⟨rfl, rfl, rfl⟩
  · rw [put, hcap, haltedCapture_other h]
  · cases f <;> exact ⟨rfl, rfl, hq, rfl, rfl, rfl, rfl, rfl, rfl, hmem, hout, rfl, rfl, ⟨rfl, rfl, rfl⟩, rfl, hd.list_eq, rfl⟩

end Sys2Proof.Proofs

namespace Sys2Proof.Proofs

open Sys2Proof.Machine Sys2Proof.Safety Sys2Proof.Laws

/-! ## Requests handed over in HALTING

A quick request does in HALTING what it does in RUNNING: each of its operations takes a pair of states that differ in the
part state alone to such a pair. -/

/-- The state with HALTING as its part state. -/
def inHalting (s : State) : State := { s with part := .halting }

/-- A state in RUNNING whose regions can be reached, and the same in HALTING. -/
structure Pair (y z : State) : Prop where
  regions : RegionsOk y
  running : y.part = .running
  resync : y.list.resyncWaiting = false
  eq : z = inHalting y

theorem Pair.working {y z : State} (h : Pair y z) : Working y := .inl h.running

theorem Pair.field {α : Type} {y z : State} (h : Pair y z) (f : State → α) (hf : f (inHalting y) = f y := by rfl) :
    f z = f y := (congrArg f h.eq).trans hf

theorem Pair.acts {y z : State} (h : Pair y z) (as : List Act) : Pair (as.foldl act y) (as.foldl act z) := by
  have hd := acted_acts (as := as) h.regions h.working
  refine ⟨hd.regionsOk h.regions, hd.part.trans h.running, ?_, ?_⟩
  · rw [hd.list_eq]
    exact h.resync
  · have hz : z = put y { y with part := .halting } := h.eq
    rw [hz, acts_put h.regions h.working { working := .inr (.inl rfl) }]
    have hf := hd.frame
    generalize as.foldl act y = w at hf ⊢
    rw [hf]
    rfl

theorem Pair.ne_faulted {y z : State} (h : Pair y z) : y.part ≠ .faulted ∧ z.part ≠ .faulted := by
  rw [h.eq, inHalting, h.running]
  exact ⟨nofun, nofun⟩

/-- The pair goes on past an operation that met no memory error. -/
theorem Pair.onward {y z : State} {k k' : State → State} (h : Pair y z) (hk : Pair (k y) (k' z)) :
    Pair (Machine.onward y k) (Machine.onward z k') := by
  rwa [onward_of_ne h.ne_faulted.1, onward_of_ne h.ne_faulted.2]

theorem Pair.complete {y z : State} (h : Pair y z) {slot : Nat} (hs : slot + 64 ≤ 2 ^ 32) (code w0 w1 : Nat) :
    Pair (Machine.complete slot code w0 w1 y) (Machine.complete slot code w0 w1 z) := by
  have hz : Working z := .inr (.inl (h.eq ▸ rfl))
  have he : z.errors = [] := (h.field State.errors).trans h.regions.2.1
  rw [complete_working h.working h.regions.2.1 hs, complete_working hz he hs]
  exact h.acts [.answer slot code w0 w1]

theorem Pair.emit {y z : State} (h : Pair y z) (e : Event) : Pair (Machine.emit e y) (Machine.emit e z) :=
  h.acts [.event e]

theorem Pair.lampDo {y z : State} (h : Pair y z) (r : Lamp × List Event) : Pair (Machine.lampDo r y) (Machine.lampDo r z) := by
  have hl : Pair { y with lamp := r.1 } { z with lamp := r.1 } := by
    obtain ⟨hr, hp, hw, rfl⟩ := h
    exact ⟨hr, hp, hw, rfl⟩
  rw [Machine.lampDo, Machine.lampDo, emitAll_eq, emitAll_eq]
  exact hl.acts _

/-! ### The lamps of HALTING are those of RUNNING (R83) -/

theorem serveChannels_halting (t tCap budget : Nat) : ∀ (ps : List (Channel × Nat)) (spent : Nat) (cut : Bool),
    serveChannels .halting t tCap budget ps spent cut = serveChannels .running t tCap budget ps spent cut
  | [], _, _ => rfl
  | (c, w) :: ps, spent, cut => by
    have hs : servedChannel .halting c = servedChannel .running c := rfl
    simp only [serveChannels, hs, serveChannels_halting t tCap budget ps]

theorem lampUpdate_halting (still : Nat) (l : Lamp) : lampUpdate .halting still l = lampUpdate .running still l := by
  have hw : cappedLevel .halting still l = cappedLevel .running still l := rfl
  have ha : autoChannel .halting = autoChannel .running := rfl
  have hl : PartState.halting.lit = PartState.running.lit := rfl
  have hr : lampLevels .halting still l = lampLevels .running still l := by
    simp only [lampLevels, autoCurrent, hw, ha, hl, serveChannels_halting]
    rfl
  simp only [lampUpdate, boostCut, hr, hw, ha]
  rfl

theorem lampStale_halting (cfg : Cfg) (cause : StaleCause) (l : Lamp) :
    lampStale .halting cfg cause l = lampStale .running cfg cause l := by
  simp only [lampStale, recomputeCeiling, lampUpdate_halting]

theorem onward_assoc (s : State) (k k' : State → State) :
    Machine.onward (Machine.onward s k) k' = Machine.onward s fun s => Machine.onward (k s) k' := by
  unfold Machine.onward
  by_cases h : s.part = .faulted
  · simp only [if_pos h]
  · simp only [if_neg h]

theorem tellTemperature_pair {y z : State} (h : Pair y z) (before after : Bool) :
    Pair (tellTemperature before after y) (tellTemperature before after z) := by
  have hl : z.lamp = y.lamp := h.field State.lamp
  have hg : z.cfg = y.cfg := h.field State.cfg
  unfold tellTemperature
  cases after
  · cases before
    · exact h
    · have he : lampEntryGone z.part z.cfg z.lamp = lampEntryGone y.part y.cfg y.lamp := by
        rw [hl, hg, h.eq, h.running]
        exact lampStale_halting _ _ _
      simp only [Bool.false_eq_true, if_false, if_true, he]
      exact h.lampDo _
  · obtain ⟨hr, hp, hw, rfl⟩ := h
    exact ⟨hr, hp, hw, rfl⟩

theorem Pair.portWrite_byte {y z : State} (h : Pair y z) {a : Nat} (ha : a < 2 ^ 32) (b : Byte) :
    Pair (Machine.portWrite a [b] y) (Machine.portWrite a [b] z) := by
  have hz : Working z := .inr (.inl (h.eq ▸ rfl))
  have he : z.errors = [] := (h.field State.errors).trans h.regions.2.1
  rw [portWrite_ok (portOpen_of_working h.working) h.regions.2.1 ha, portWrite_ok (portOpen_of_working hz) he ha]
  exact h.acts [.store a [b]]

/-- The first bytes of a store's header can be reached. -/
theorem storeBase_lt {s : State} {k : Nat} (h : RegionsOk s) (hk : k < s.cfg.stores) : storeBase s.cfg k + 1 < 2 ^ 32 := by
  obtain ⟨-, -, -, -, -, -, -, hs, hl⟩ := h
  have := Nat.mul_le_mul_right s.cfg.stride hk
  rw [Nat.succ_mul] at this
  unfold storeBase
  omega

section
variable {y z : State} {r : Request} (h : Pair y z) (hs : r.slot + 64 ≤ 2 ^ 32)
include h hs

theorem badArgument_pair : Pair (badArgument r y) (badArgument r z) := h.complete hs _ _ _

theorem lampSet_pair : Pair (lampSetOp r y) (lampSetOp r z) := by
  by_cases hc : lampSetRefused r.args = true
  · rw [lampSetOp, lampSetOp, if_pos hc, if_pos hc]
    exact badArgument_pair h hs
  · have hl : ∀ l, lampUpdate z.part z.cfg.stillLevel l = lampUpdate y.part y.cfg.stillLevel l := fun l => by
      rw [h.eq, h.running, ← lampUpdate_halting]
      rfl
    have hz : z.lamp = y.lamp := h.field State.lamp
    simp only [lampSetOp, if_neg hc, hl, hz]
    have hd := h.lampDo (lampUpdate y.part y.cfg.stillLevel
      { y.lamp with channels := updateAt y.lamp.channels (u8 r.args 0) (Channel.change r.args) })
    refine hd.onward ?_
    rw [hd.field State.lamp]
    exact hd.complete hs _ _ _

theorem chainageCalibrate_pair : Pair (chainageCalibrateOp r y) (chainageCalibrateOp r z) := by
  by_cases hc : calibrateRefused r.args = true
  · rw [chainageCalibrateOp, chainageCalibrateOp, if_pos hc, if_pos hc]
    exact badArgument_pair h hs
  · obtain ⟨hr, hp, hw, rfl⟩ := h
    simp only [chainageCalibrateOp, if_neg hc]
    refine Pair.complete ?_ hs _ _ _
    exact ⟨hr, hp, hw, rfl⟩

theorem driveHold_pair : Pair (driveHoldOp r y) (driveHoldOp r z) := by
  by_cases hc : 2 < u8 r.args 0
  · rw [driveHoldOp, driveHoldOp, if_pos hc, if_pos hc]
    exact badArgument_pair h hs
  · obtain ⟨hr, hp, hw, rfl⟩ := h
    simp only [driveHoldOp, if_neg hc]
    refine Pair.complete ?_ hs _ _ _
    exact ⟨hr, hp, hw, rfl⟩

theorem latchClear_pair : Pair (latchClearOp r y) (latchClearOp r z) := by
  by_cases hc : 16777216 ≤ u32 r.args 4
  · rw [latchClearOp, latchClearOp, if_pos hc, if_pos hc]
    exact badArgument_pair h hs
  · obtain ⟨hr, hp, hw, rfl⟩ := h
    simp only [latchClearOp, if_neg hc]
    refine Pair.complete ?_ hs _ _ _
    exact ⟨hr, hp, hw, rfl⟩

theorem pollSet_pair : Pair (pollSetOp r y) (pollSetOp r z) := by
  have hb : z.bus = y.bus := h.field State.bus
  by_cases hc : pollSetRefused r.args y.bus.polls = true
  · rw [pollSetOp, pollSetOp, hb, if_pos hc, if_pos hc]
    exact badArgument_pair h hs
  · obtain ⟨hr, hp, hw, rfl⟩ := h
    simp only [pollSetOp, hb, if_neg hc]
    have hd : Pair { y with bus := replacePoll (u8 r.args 0) (pollSetEntry r.args) y.bus }
      { inHalting y with bus := replacePoll (u8 r.args 0) (pollSetEntry r.args) y.bus } := ⟨hr, hp, hw, rfl⟩
    exact (tellTemperature_pair hd _ _).onward ((tellTemperature_pair hd _ _).complete hs _ _ _)

/-- The answer of a FRAME_HOLD or FRAME_RELEASE, after the hold field of the store's header. -/
def answerHeld (r : Request) (k : Nat) (b : Byte) (s : State) : State :=
  Machine.onward (Machine.portWrite (storeBase s.cfg k + 1) [b] s) fun s => Machine.complete r.slot rcOk k (heldStores s) s

theorem answerHeld_pair {k : Nat} (hk : k < y.cfg.stores) (b : Byte) : Pair (answerHeld r k b y) (answerHeld r k b z) := by
  have hd := h.portWrite_byte (storeBase_lt h.regions hk) b
  have hz : answerHeld r k b z = Machine.onward (Machine.portWrite (storeBase y.cfg k + 1) [b] z) fun s =>
      Machine.complete r.slot rcOk k (heldStores s) s := by
    rw [← h.field State.cfg]
    rfl
  rw [hz]
  refine hd.onward ?_
  have hh : heldStores (Machine.portWrite (storeBase y.cfg k + 1) [b] z) = _ := hd.field heldStores
  rw [hh]
  exact hd.complete hs _ _ _

theorem answerHeld_capture {k : Nat} (hk : k < y.cfg.stores) (b : Byte) : (answerHeld r k b y).capture = y.capture := by
  have ho := portOpen_of_working h.working
  have he := h.regions.2.1
  rw [answerHeld, portWrite_ok ho he (storeBase_lt h.regions hk), onward_of_ne (by exact h.ne_faulted.1),
    complete_ok (by exact ho) (by exact he) (by omega)]
  rfl

omit hs in
theorem updateStore_pair (k : Nat) (f : RingEntry → RingEntry) : Pair (updateStore k f y) (updateStore k f z) := by
  obtain ⟨hr, hp, hw, rfl⟩ := h
  exact ⟨hr, hp, hw, rfl⟩

theorem frameHold_pair : Pair (frameHoldOp r y) (frameHoldOp r z) := by
  have hf : completeStore z (argSequence r.args) = completeStore y (argSequence r.args) := h.field (completeStore · _)
  have hh : heldStores z = heldStores y := h.field heldStores
  have hg : z.cfg = y.cfg := h.field State.cfg
  unfold frameHoldOp
  rw [hf]
  cases hk : completeStore y (argSequence r.args) with
  | none => exact h.complete hs _ _ _
  | some k =>
    have he : storeAt z k = storeAt y k := h.field (storeAt · k)
    simp only [he, hh, hg]
    split
    · exact h.complete hs _ _ _
    split
    · exact h.complete hs _ _ _
    · exact answerHeld_pair (updateStore_pair h k _) hs (List.mem_range.1 (List.mem_of_find?_eq_some hk)) 1

theorem frameRelease_pair (hn : y.capture.trig ≠ .deferred) : Pair (frameReleaseOp r y) (frameReleaseOp r z) := by
  have hf : heldStore z (argSequence r.args) = heldStore y (argSequence r.args) := h.field (heldStore · _)
  unfold frameReleaseOp
  rw [hf]
  cases hk : heldStore y (argSequence r.args) with
  | none => exact h.complete hs _ _ _
  | some k =>
    have hlt : k < y.cfg.stores := List.mem_range.1 (List.mem_of_find?_eq_some hk)
    have hp := updateStore_pair h k fun e => { e with hold := false }
    have hd := answerHeld_pair hp hs hlt 0
    have hc := answerHeld_capture hp hs hlt 0
    have hy : reportRelease (answerHeld r k 0 (updateStore k (fun e => { e with hold := false }) y)) = _ :=
      if_neg (by rw [hc]; exact hn)
    have hz : reportRelease (answerHeld r k 0 (updateStore k (fun e => { e with hold := false }) z)) = _ :=
      if_neg (by rw [hd.field State.capture, hc]; exact hn)
    have ho := hd.onward (k := reportRelease) (k' := reportRelease) (by rw [hy, hz]; exact hd)
    unfold answerHeld at ho
    rwa [onward_assoc, onward_assoc] at ho

omit hs in
theorem appendEdit_pair : Pair (appendEdit r y) (appendEdit r z) := by
  obtain ⟨hr, hp, hw, rfl⟩ := h
  exact ⟨hr, hp, hw, rfl⟩

end

/-- Without auto-stop, STOP_REACHED is all that the stop target gives rise to (R121). -/
theorem evalTarget_pair {y z : State} (h : Pair y z) (ha : y.chainage.autoStop = false) :
    Pair (evalTarget y) (evalTarget z) := by
  have hz : z.chainage = y.chainage := h.field State.chainage
  unfold evalTarget
  rw [hz]
  cases ht : y.chainage.stopTarget with
  | none => exact h
  | some target =>
    by_cases hf : y.chainage.fired = false ∧ targetReached y.chainage target = true
    · have hd : Pair { y with chainage := y.chainage.fire } { z with chainage := y.chainage.fire } := by
        obtain ⟨hr, hp, hw, rfl⟩ := h
        exact ⟨hr, hp, hw, rfl⟩
      have hd' := hd.emit (Event.stopReached target y.chainage.x)
      have hf' := (acted_emit (e := Event.stopReached target y.chainage.x) hd.regions hd.working).frame
      have hc : (emit (Event.stopReached target y.chainage.x) { y with chainage := y.chainage.fire }).chainage.autoStop = false := by
        rw [hf']
        exact ha
      have hcz := (hd'.field (State.chainage)).symm ▸ hc
      simp only [if_pos hf, hc, hcz]
      exact hd'
    · simpa only [if_neg hf] using h

/-- The chainage unit's part of a CHAINAGE_RUN without auto-stop. -/
theorem chainageRun_pair {y z : State} {r : Request} (h : Pair y z) (hs : r.slot + 64 ≤ 2 ^ 32)
    (ha : y.chainage.autoStop = false) : Pair (chainageRunOp r y) (chainageRunOp r z) := by
  by_cases hc : 2 < u8 r.args 0 ∨ 1 < u8 r.args 1
  · rw [chainageRunOp, chainageRunOp, if_pos hc, if_pos hc]
    exact badArgument_pair h hs
  · have hz : z.chainage = y.chainage := h.field State.chainage
    have zeroed : Pair (if u8 r.args 1 = 1 ∧ zeroTaken (u8 r.args 0) y.chainage = true then
          evalTarget { y with chainage := y.chainage.zero } else y)
        (if u8 r.args 1 = 1 ∧ zeroTaken (u8 r.args 0) y.chainage = true then
          evalTarget { z with chainage := y.chainage.zero } else z) := by
      split
      · refine evalTarget_pair ?_ ha
        obtain ⟨hr, hp, hw, rfl⟩ := h
        exact ⟨hr, hp, hw, rfl⟩
      · exact h
    simp only [chainageRunOp, if_neg hc, hz]
    generalize (if u8 r.args 1 = 1 ∧ zeroTaken (u8 r.args 0) y.chainage = true then
          evalTarget { y with chainage := y.chainage.zero } else y) = u at zeroed ⊢
    generalize (if u8 r.args 1 = 1 ∧ zeroTaken (u8 r.args 0) y.chainage = true then
          evalTarget { z with chainage := y.chainage.zero } else z) = v at zeroed ⊢
    obtain ⟨hr, hp, hw, rfl⟩ := zeroed
    refine Pair.complete ?_ hs _ _ _
    exact ⟨hr, hp, hw, rfl⟩

theorem markSet_pair {y z : State} {r : Request} (h : Pair y z) (hs : r.slot + 64 ≤ 2 ^ 32)
    (ha : y.chainage.autoStop = false) (hb : bitAt r.args 0 4 = false) : Pair (markSetOp r y) (markSetOp r z) := by
  by_cases hc : markSetRefused r.args = true
  · rw [markSetOp, markSetOp, if_pos hc, if_pos hc]
    exact badArgument_pair h hs
  · have hz : z.chainage = y.chainage := h.field State.chainage
    have ht : (y.chainage.markSet r.args).autoStop = false := by
      simp only [Chainage.markSet, Chainage.arm, hb]
      exact ha
    have set : Pair (evalTarget { y with chainage := y.chainage.markSet r.args })
        (evalTarget { z with chainage := y.chainage.markSet r.args }) := by
      refine evalTarget_pair ?_ ht
      obtain ⟨hr, hp, hw, rfl⟩ := h
      exact ⟨hr, hp, hw, rfl⟩
    simp only [markSetOp, if_neg hc, hz]
    rw [set.field State.chainage]
    exact set.complete hs _ _ _

/-- The state with RUNNING as its part state. -/
def inRunning (s : State) : State := { s with part := .running }

/-- Outside RUNNING with no LIST_RESYNC waiting, a hand-over ends the scan, and perhaps the HALT (R8). -/
theorem finishHand_halting {s : State} (hp : s.part = .halting) (hr : s.list.resyncWaiting = false) :
    finishHand s = settleHalt (endScan s) := by
  unfold finishHand
  rw [hr]
  simp only [Bool.false_eq_true, if_false]
  rw [if_neg (by simp [hp])]

/-- What a command does that hands over the request in hand. -/
theorem handOver_eq {r : Request} {s : State} {isKind : Nat → Bool} {f : Request → State → State}
    (hh : s.list.handed = some r) (hk : isKind r.kind = true) : handOver isKind f s = finishHand (f r (released s)) := by
  simp only [handOver, hh, hk, if_true]
  rfl

/-- A request handed over in HALTING does what it does in RUNNING, and then the scan and perhaps the HALT end. -/
def CompletesAsRunning (c : Instr) (s : State) : Prop :=
  ∃ u, exec c { s with part := .running } = .next u ∧ exec c s = .next (settleHalt (endScan { u with part := .halting }))

/-- So it is where its operation does the same in both part states. -/
theorem completes_of_pair {r : Request} {s : State} {isKind : Nat → Bool} {f : Request → State → State} {c : Instr}
    (hx : ∀ s, exec c s = .next (handOver isKind f s)) (hh : s.list.handed = some r) (hk : isKind r.kind = true)
    (h : Pair (f r (released (inRunning s))) (f r (released s))) : CompletesAsRunning c s := by
  have hrun : exec c (inRunning s) = .next (f r (released (inRunning s))) := by
    rw [hx, handOver_eq (s := inRunning s) hh hk, finishHand_running h.running h.resync]
  refine ⟨_, hrun, ?_⟩
  rw [hx, handOver_eq hh hk, h.eq]
  exact congrArg Host.Outcome.next (finishHand_halting (s := inHalting _) rfl h.resync)

/-- The request in hand in HALTING is handed over in a pair of states. -/
theorem pair_released {s : State} (hp : s.part = .halting) (hw : s.list.resyncWaiting = false) (h : RegionsOk s) :
    Pair (released (inRunning s)) (released s) :=
  ⟨h, rfl, hw, by rw [released, inHalting, released, inRunning, ← hp]⟩

end Sys2Proof.Proofs

namespace Sys2Proof.Proofs

open Sys2Proof.Machine Sys2Proof.Safety Sys2Proof.Laws

/-! ## What the end of a HALT leaves -/

/-- Acts clear no attention bit. -/
theorem acts_attention {i : Nat} : ∀ {as : List Act} {s : State}, RegionsOk s → Working s →
    s.attention.getLsbD i = true → (as.foldl act s).attention.getLsbD i = true
  | [], _, _, _, h => h
  | a :: as, s, hr, hw, h => by
    have hd := acted_act (a := a) hr hw
    refine acts_attention (as := as) (s := act s a) (hd.regionsOk hr) (hd.working hw) ?_
    cases a with
    | event e =>
      obtain he | he := emit_cases (e := e) hr hw
      · obtain ⟨j, l, hc, -⟩ := advanceEventCursor_list { s with mem := eventMem e s }
        rw [act, he, eventWritten, hc, setAttention_attention, BitVec.getLsbD_or]
        exact Bool.or_eq_true_iff.2 (.inl h)
      · rw [act, he]
        exact h
    | answer | attention => exact (BitVec.getLsbD_or ..).trans (Bool.or_eq_true_iff.2 (.inl h))
    | store => exact h

theorem readList_congr {m m' : List Host.Cell} : ∀ {n a : Nat}, (∀ i < n, Memory.read m (a + i) = Memory.read m' (a + i)) →
    Memory.readList m a n = Memory.readList m' a n
  | 0, _, _ => rfl
  | n + 1, a, h => by
    rw [Memory.readList, Memory.readList, show Memory.read m a = Memory.read m' a from h 0 (Nat.succ_pos n),
      readList_congr fun i hi => Nat.add_assoc a 1 i ▸ Nat.add_comm 1 i ▸ h (i + 1) (Nat.succ_lt_succ hi)]

/-- An answer stays where its slot is left as it was. -/
theorem holdsAnswer_kept {slot code w0 w1 : Nat} {s t : State} (h : HoldsAnswer slot code w0 w1 s)
    (hm : ∀ x, InRange (slotHead slot) x → Memory.read t.mem x = Memory.read s.mem x)
    (ha : t.attention.getLsbD 0 = true) : HoldsAnswer slot code w0 w1 t := by
  obtain ⟨h0, h3, h8, -⟩ := h
  have inside : ∀ i < 16, InRange (slotHead slot) (slot + i) := fun i hi => by simp only [InRange, slotHead]; omega
  refine ⟨(hm _ (inside 0 (by decide))).trans h0, (hm _ (inside 3 (by decide))).trans h3, ?_, ha⟩
  exact (readList_congr fun i hi => hm _ (Nat.add_assoc slot 8 i ▸ inside (8 + i) (by omega))).trans h8

theorem events_sameOutside {es : List Event} {s : State} (h : RegionsOk s) (hw : Working s) :
    SameOutside [eventList s] s ((events es).foldl act s) :=
  sameOutside_mono (fun r hr => by
    obtain ⟨a, ha, hr⟩ := List.mem_flatMap.1 hr
    obtain ⟨e, -, rfl⟩ := List.mem_map.1 ha
    exact hr) (acts_sameOutside h hw)

/-- The end of a HALT writes events alone (R9, R91). -/
theorem settled_sameOutside {s : State} (h : RegionsOk s) (hw : Working s) : SameOutside [eventList s] s (settled s) := by
  rw [settled_eq h hw]
  split
  · exact events_sameOutside h hw
  · exact fun _ _ => rfl

/-- An answer outside the event list stays at the end of a HALT. -/
theorem settled_holds {slot code w0 w1 : Nat} {s : State} (h : RegionsOk s) (hw : Working s)
    (ha : HoldsAnswer slot code w0 w1 s) (hs : Apart (slotHead slot) (eventList s)) :
    HoldsAnswer slot code w0 w1 (settled s) := by
  refine holdsAnswer_kept ha (fun x hx => settled_sameOutside h hw x fun r hr => ?_) ?_
  · rw [List.mem_singleton.1 hr]
    exact hs x hx
  · rw [settled_eq h hw]
    split
    · exact acts_attention h hw ha.2.2.2
    · exact ha.2.2.2

theorem settled_exposure {s : State} (h : RegionsOk s) (hw : Working s) : (settled s).exposure = s.exposure := by
  rw [settled_eq h hw]
  split <;> rfl

theorem settled_bus {s : State} (h : RegionsOk s) (hw : Working s) : (settled s).bus = s.bus := by
  rw [settled_eq h hw]
  split <;> rfl

/-! ## EXPOSURE_SET in HALTING -/

theorem u16_testBit {args : List Byte} {i k : Nat} : (u16 args i).testBit k =
    if k < 8 then (args.getD i 0).getLsbD k else (args.getD (i + 1) 0).getLsbD (k - 8) := by
  have h := Nat.testBit_two_pow_mul_add (u8 args (i + 1)) (args.getD i 0).isLt k
  have he : 2 ^ 8 * u8 args (i + 1) + (args.getD i 0).toNat = u16 args i := Nat.add_comm _ _
  rw [he] at h
  rw [h]
  rfl

/-- The present field is bytes 2 and 3 (section 12.3). -/
theorem expPresent_eq (args : List Byte) (k : Nat) : expPresent args k = (u16 args 2).testBit k :=
  u16_testBit.symm

theorem expMoved_param (args : List Byte) (k lo hi value current : Nat) :
    expMoved args k value (expParam args k lo hi value current)
      = ((u16 args 2).testBit k && decide (min hi (max lo value) ≠ value)) := by
  unfold expMoved expParam
  rw [← expPresent_eq]
  cases expPresent args k with
  | false => rfl
  | true =>
    rw [if_pos rfl, Bool.true_and, Bool.true_and, Bool.eq_iff_iff, bne_iff_ne, decide_eq_true_iff]
    exact ne_comm

/-- The preferred exposure time counts as brought into range by the bounds after the request (log entry 35). -/
theorem expMoved_tPref (args : List Byte) (e : Exposure) :
    expMoved args 1 (u32 args 8) (expParams args e).tPref = ((u16 args 2).testBit 1
      && decide (min (expParams args e).tMax (max (expParams args e).tMin (u32 args 8)) ≠ u32 args 8)) := by
  have h : (expParams args e).tPref = expParam args 1 (expParams args e).tMin (expParams args e).tMax (u32 args 8)
      (clampNat (expParams args e).tMin (expParams args e).tMax e.tPref) :=
    apply_ite (clampNat (expParams args e).tMin (expParams args e).tMax) (expPresent args 1 = true) (u32 args 8) e.tPref
  rw [h]
  exact expMoved_param args 1 _ _ _ _

/-- The parameters stand after the manual values and the bringing into bounds. -/
theorem exposureSet_params (args : List Byte) (e : Exposure) :
    let m := exposureSetManual args e
    let p := expParams args e
    m.tMin = p.tMin ∧ m.tMax = p.tMax ∧ m.gMax = p.gMax ∧ m.lMax = p.lMax
      ∧ (m.mode = .manual → m.planT = expParam args 9 p.tMin p.tMax (u32 args 28) p.planT
          ∧ m.planG = expParam args 10 256 p.gMax (u16 args 32) p.planG
          ∧ m.planL = expParam args 11 0 p.lMax (u16 args 34) p.planL) := by
  unfold exposureSetManual expManual
  simp only
  split
  · exact ⟨rfl, rfl, rfl, rfl, fun _ => ⟨rfl, rfl, rfl⟩⟩
  · rename_i h
    exact ⟨rfl, rfl, rfl, rfl, fun h' => absurd h' h⟩

/-- The parameters and the manual values leave the gain path. -/
theorem exposureSet_gain (args : List Byte) (e : Exposure) :
    (exposureSetManual args e).handedGain = e.handedGain ∧ (exposureSetManual args e).gws = e.gws := by
  unfold exposureSetManual expManual
  simp only
  split <;> exact ⟨rfl, rfl⟩

/-- An argument was brought into its range exactly where the answer is CLAMPED (R95). -/
theorem exposureMoved_eq (args : List Byte) (e : Exposure) (l : Lamp) :
    exposureMoved args { expWithin l (exposureSetManual args e) with retry := false }
      = exposureSetClamped args (expParams args e) (exposureSetManual args e) := by
  obtain ⟨hMin, hMax, hGain, hLevel, manual⟩ := exposureSet_params args e
  have c0 : expMoved args 0 (u32 args 4) (expParams args e).tMin = _ := expMoved_param args 0 20 200000 _ _
  have c2 : expMoved args 2 (u32 args 12) (expParams args e).tMax = _ := expMoved_param args 2 20 200000 _ _
  have c3 : expMoved args 3 (u16 args 16) (expParams args e).gMax = _ := expMoved_param args 3 256 4096 _ _
  have c4 : expMoved args 4 (u16 args 18) (expParams args e).lMin = _ := expMoved_param args 4 0 1023 _ _
  have c5 : expMoved args 5 (u16 args 20) (expParams args e).lMax = _ := expMoved_param args 5 0 1023 _ _
  have c6 : expMoved args 6 (u8 args 22) (expParams args e).target = _ := expMoved_param args 6 16 235 _ _
  have c7 : expMoved args 7 (u8 args 23) (expParams args e).tolerance = _ := expMoved_param args 7 0 32 _ _
  have c8 : expMoved args 8 (u8 args 24) (expParams args e).damping = _ := expMoved_param args 8 1 16 _ _
  unfold exposureSetClamped exposureMoved
  rw [c0, expMoved_tPref, c2, c3, c4, c5, c6, c7, c8]
  simp only [expWithin, hMin, hMax, hGain, hLevel]
  by_cases hm : (exposureSetManual args e).mode = .manual
  · obtain ⟨hT, hG, hL⟩ := manual hm
    rw [hT, hG, hL, expMoved_param, expMoved_param, expMoved_param]
  · rw [beq_false_of_ne hm, Bool.false_and, Bool.false_and]

/-- A unit outside RUNNING takes no work (R150). -/
theorem busServe_other {s : State} (h : s.part ≠ .running) : busServe s = s := by
  have hm : mayTake s = false := by simp [mayTake, h]
  rw [busServe, serveBus, hm]
  rfl

/-- EXPOSURE_SET outside RUNNING: the values and the answer, and no gain handed (R95, R101). -/
theorem exposureSetOp_halting {r : Request} {s : State} (hp : s.part = .halting) (he : s.errors = [])
    (hs : r.slot + 64 ≤ 2 ^ 32) (hr : exposureSetRefused r.args s.exposure = false) :
    let e := { expWithin s.lamp (exposureSetManual r.args s.exposure) with retry := false }
    exposureSetOp r s = answered r.slot (if exposureMoved r.args e then 1 else 0) e.planT e.planG { s with exposure := e } := by
  intro e
  have hw : Working { s with exposure := e } := .inr (.inl hp)
  have hg : ∀ x, handGain { s with exposure := x } = { s with exposure := x } := fun x => if_pos (by simp [hp])
  have hc := complete_working (code := if exposureMoved r.args e then 1 else 0) (w0 := e.planT) (w1 := e.planG) hw he hs
  have hb : busServe (answered r.slot (if exposureMoved r.args e then 1 else 0) e.planT e.planG { s with exposure := e }) = _ :=
    busServe_other (by simp [hp])
  unfold exposureSetOp
  rw [hr]
  simp only [Bool.false_eq_true, if_false, hg, ← exposureMoved_eq r.args s.exposure s.lamp]
  exact (congrArg (onward · busServe) hc).trans ((onward_of_ne (by simp [act, hp])).trans hb)

/-- EXPOSURE_SET names a mode, and its times are in order (R95). -/
theorem exposureSet_taken {args : List Byte} {e : Exposure} (hm : u8 args 0 ≤ 2)
    (ht : (if (u16 args 2).testBit 0 then clampNat 20 200000 (u32 args 4) else e.tMin)
      ≤ (if (u16 args 2).testBit 2 then clampNat 20 200000 (u32 args 12) else e.tMax)) :
    exposureSetRefused args e = false := by
  rw [← expPresent_eq, ← expPresent_eq] at ht
  have ht : (expParams args e).tMin ≤ (expParams args e).tMax := ht
  unfold exposureSetRefused
  rw [decide_eq_false (Nat.not_lt.2 hm), decide_eq_false (Nat.not_lt.2 ht)]
  rfl

/-! ## New work handed over in HALTING -/

/-- A request handed over in HALTING whose operation answers it: its answer, then the scan and perhaps the HALT end. -/
theorem halting_answered {r : Request} {s x : State} {isKind : Nat → Bool} {f : Request → State → State} {c : Instr}
    {code w0 w1 : Nat} (hx : exec c s = .next (handOver isKind f s))
    (hh : s.list.handed = some r) (hk : isKind r.kind = true) (hr : RegionsOk x) (hxp : x.part = .halting)
    (hxr : x.list.resyncWaiting = false) (hf : f r (released s) = answered r.slot code w0 w1 x)
    (hs : Apart (slotHead r.slot) (eventList x)) :
    exec c s = .next (settled (endScan (answered r.slot code w0 w1 x)))
      ∧ HoldsAnswer r.slot code w0 w1 (settled (endScan (answered r.slot code w0 w1 x)))
      ∧ RegionsOk (endScan (answered r.slot code w0 w1 x)) ∧ Working (endScan (answered r.slot code w0 w1 x)) := by
  have hw : Working x := .inr (.inl hxp)
  have hy : RegionsOk (endScan (answered r.slot code w0 w1 x)) :=
    (acted_act (a := .answer r.slot code w0 w1) hr hw).regionsOk hr
  have hyw : Working (endScan (answered r.slot code w0 w1 x)) := hw
  refine ⟨?_, settled_holds hy hyw (answered_holds (s := x) hr.1) hs, hy, hyw⟩
  rw [hx, handOver_eq hh hk, hf, finishHand_halting (s := answered r.slot code w0 w1 x) hxp hxr, settleHalt_settled hy hyw]

/-- New work in HALTING is answered ABORTED (R8). -/
def EndsAborted (c : Instr) (r : Request) (s : State) : Prop := ∃ t, exec c s = .next t ∧ HoldsAnswer r.slot 9 0 0 t
  ∧ t = settled (answered r.slot 9 0 0 (released { s with list := { s.list with scanning := false } }))
  ∧ SameOutside [slotHead r.slot, eventList s] s t

theorem endsAborted_of {r : Request} {s : State} {k : Nat} {f : Request → State → State} {c : Instr}
    (hx : exec c s = .next (handOverKind k f s)) (hp : s.part = .halting) (hh : s.list.handed = some r)
    (hw : s.list.resyncWaiting = false) (hr : RegionsOk s) (hl : r.slot + 64 ≤ 2 ^ 32)
    (hs : Apart (slotHead r.slot) (eventList s)) (hk : r.kind = k)
    (hf : f r (released s) = complete r.slot 9 0 0 (released s)) : EndsAborted c r s := by
  have hc := hf.trans (complete_working (s := released s) (.inr (.inl hp)) hr.2.1 hl)
  obtain ⟨ht, ha, hy, hyw⟩ := halting_answered hx hh (beq_iff_eq.2 hk) (x := released s) hr hp hw hc hs
  refine ⟨_, ht, ha, rfl, ?_⟩
  have hans : SameOutside [slotHead r.slot] s (endScan (answered r.slot 9 0 0 (released s))) := fun x hx =>
    read_answered (s := released s) hr.1 (hx _ (List.mem_singleton_self _))
  exact sameOutside_trans (sameOutside_mono (by simp) hans) (sameOutside_mono (by simp [eventList]) (settled_sameOutside hy hyw))

/-- The bus once a BUS_RESET has started a recovery attempt (R149). -/
def resetting (slot : Nat) (b : Bus) : Bus := { b with
  retries := 0, state := .recovery, afterReset := true, busyTimer := none, resets := [slot] }

/-- BUS_RESET in HALTING on an idle unit starts the recovery attempt, which keeps the part in HALTING (R8, R149). -/
theorem busReset_halting {r : Request} {s : State} (hp : s.part = .halting) (hh : s.list.handed = some r)
    (hw : s.list.resyncWaiting = false) (hk : r.kind = 15) (hb : s.bus.state = .idle)
    (hg : s.bus.pendingGain = none) (acked : Nat) :
    ∃ t, exec (.busReset acked) s = .next t ∧ t.part = .halting ∧ t.bus = resetting r.slot s.bus := by
  have hd : gainDropped (released s) = released s := by simp only [gainDropped, released_bus, hg]
  have ho : busResetOp r.slot acked (released s) = { released s with bus := resetting r.slot s.bus } := by
    unfold busResetOp
    simp only [released_bus, hb, reduceCtorEq, false_and, or_self, if_false]
    rw [onward_of_ne (by rw [released_part, hp]; decide), hd]
    rfl
  have hf : inFlight (endScan { released s with bus := resetting r.slot s.bus }) = true :=
    (inFlight_iff _).2 (by simp [resetting])
  have hs : settleHalt (endScan { released s with bus := resetting r.slot s.bus }) = _ :=
    if_neg (by rw [hf]; exact fun h => nomatch h.2)
  have hx : exec (.busReset acked) s = .next (finishHand (busResetOp r.slot acked (released s))) :=
    congrArg Host.Outcome.next (handOver_eq (isKind := (· == kBusReset)) (f := fun r s => busResetOp r.slot acked s) hh
      (beq_iff_eq.2 hk))
  rw [hx, ho, finishHand_halting (s := { released s with bus := resetting r.slot s.bus }) hp hw, hs]
  exact ⟨_, rfl, hp, rfl⟩

/-- Settles O30. -/
theorem haltingHandOverAborts : Obligations.HaltingHandOverAborts := by
  intro r s hp hh hw hr hl hs has Ends Completes
  have h := pair_released hp hw hr
  have completes : ∀ {k : Nat} {f : Request → State → State} {c : Instr},
      (∀ s, exec c s = .next (handOverKind k f s)) → r.kind = k →
      Pair (f r (released (inRunning s))) (f r (released s)) → CompletesAsRunning c s :=
    fun hx hk hf => completes_of_pair hx hh (beq_iff_eq.2 hk) hf
  have ends : ∀ {k : Nat} {f : Request → State → State} {c : Instr},
      exec c s = .next (handOverKind k f s) → r.kind = k →
      f r (released s) = complete r.slot 9 0 0 (released s) → EndsAborted c r s :=
    fun hx hk hf => endsAborted_of hx hp hh hw hr hl hs hk hf
  refine ⟨fun hk => ?_, fun hk => completes (fun _ => rfl) hk (lampSet_pair h hl),
    fun hk => completes (fun _ => rfl) hk (chainageCalibrate_pair h hl),
    fun hk ha => completes (fun _ => rfl) hk (chainageRun_pair h hl ha),
    fun hk ha hb => completes (fun _ => rfl) hk (markSet_pair h hl ha hb),
    fun hk => completes (fun _ => rfl) hk (driveHold_pair h hl),
    fun hk => completes (fun _ => rfl) hk (frameHold_pair h hl),
    fun hk ht => completes (fun _ => rfl) hk (frameRelease_pair h hl ht),
    fun hk => completes (fun _ => rfl) hk (appendEdit_pair h), fun hk => completes (fun _ => rfl) hk (appendEdit_pair h),
    fun hk => completes (fun _ => rfl) hk (appendEdit_pair h), fun hk => completes (fun _ => rfl) hk (pollSet_pair h hl),
    fun hk => completes (fun _ => rfl) hk (latchClear_pair h hl), fun hk hm ht => ?_,
    fun hk _ hb hg acked => busReset_halting hp hh hw hk hb hg acked, fun hk => ?_, fun hk h0 h1 h2 h3 h4 => ?_,
    fun hk h0 h1 h2 => ?_⟩
  · refine completes_of_pair (fun _ => rfl) hh ?_ (h.complete hl rcBadKind 0 0)
    simp only [knownKind, Bool.not_eq_true', Bool.and_eq_false_iff, decide_eq_false_iff_not]
    omega
  · have ho := exposureSetOp_halting (r := r) (s := released s) hp hr.2.1 hl (exposureSet_taken hm ht)
    obtain ⟨hx, ha, hy, hyw⟩ := halting_answered (c := .exposureSet) (f := exposureSetOp) rfl hh (beq_iff_eq.2 hk)
      (by exact hr) (by exact hp) (by exact hw) ho hs
    refine ⟨_, hx, ?_, ?_, ?_, settled_bus hy hyw⟩
    · rw [settled_exposure hy hyw]
      exact ha
    · rw [settled_exposure hy hyw]
      exact (exposureSet_gain r.args s.exposure).1
    · rw [settled_exposure hy hyw]
      exact (exposureSet_gain r.args s.exposure).2
  · exact ends rfl hk (if_neg (by rw [released_part, hp]; decide))
  · refine ends rfl hk ((if_neg ?_).trans (if_pos hp))
    simp only [transferRefused, Bool.or_eq_true, Bool.and_eq_true, decide_eq_true_eq, beq_iff_eq]
    omega
  · refine ends rfl hk ((if_neg ?_).trans (if_pos hp))
    simp only [uplinkRefused, Bool.or_eq_true, decide_eq_true_eq]
    omega

end Sys2Proof.Proofs

namespace Sys2Proof.Proofs

open Sys2Proof.Machine Sys2Proof.Safety Sys2Proof.Laws

/-! ## The checks of a START as the rows of R5's table -/

theorem row_eq {offset code : Nat} {ok : Prop} [Decidable ok] {b : Bool} (h : b = true ↔ ok) :
    (⟨offset, code, b⟩ : Check) = row offset code ok := by
  rw [row, Bool.eq_iff_iff.2 (h.trans decide_eq_true_iff.symm)]

theorem within_eq (offset lo hi x : Nat) : within offset lo hi x = row offset 1 (lo ≤ x ∧ x ≤ hi) :=
  row_eq (by simp)

theorem channelChecks_eq (r : List Byte) (i : Nat) : channelChecks r i =
    [byteIn r (0x44 + 8 * i) 0 2, byteIn r (0x44 + 8 * i + 1) 0 1, halfIn r (0x44 + 8 * i + 2) 0 3000,
     halfIn r (0x44 + 8 * i + 4) 0 1023, halfIn r (0x44 + 8 * i + 6) 0 1023] := by
  simp only [channelChecks, within_eq]
  rfl

theorem pollChecks_eq (r : List Byte) (j : Nat) : pollChecks r j =
    [byteIn r (0xB0 + 6 * j) 0 1, byteIn r (0xB0 + 6 * j + 1) 0 127, byteIn r (0xB0 + 6 * j + 3) 1 4,
     byteIn r (0xB0 + 6 * j + 4) 1 255,
     row (0xB0 + 6 * j + 5) 1 (u8 r (0xB0 + 6 * j + 5) = 0 ∨ u8 r (0xB0 + 6 * j + 5) = 1 ∧ u8 r (0xB0 + 6 * j + 3) = 2
       ∧ ∀ i < j, u8 r (0xB0 + 6 * i + 5) ≠ 1)] := by
  have hp : inRange (0xB0 + 6 * j + 5) (u8 r (0xB0 + 6 * j + 5) ≤ 1 && (!(u8 r (0xB0 + 6 * j + 5) == 1)
      || (u8 r (0xB0 + 6 * j + 3) == 2 && !(List.range j).any fun i => u8 r (0xB0 + 6 * i + 5) == 1)))
      = row (0xB0 + 6 * j + 5) 1 (u8 r (0xB0 + 6 * j + 5) = 0 ∨ u8 r (0xB0 + 6 * j + 5) = 1
        ∧ u8 r (0xB0 + 6 * j + 3) = 2 ∧ ∀ i < j, u8 r (0xB0 + 6 * i + 5) ≠ 1) := by
    refine row_eq ?_
    simp only [Bool.and_eq_true, Bool.or_eq_true, Bool.not_eq_true', decide_eq_true_eq, beq_eq_false_iff_ne, beq_iff_eq,
      List.any_eq_false, List.mem_range]
    constructor
    · rintro ⟨hle, h⟩
      obtain h0 | h1 : u8 r (0xB0 + 6 * j + 5) = 0 ∨ u8 r (0xB0 + 6 * j + 5) = 1 := by omega
      · exact .inl h0
      · exact .inr ⟨h1, h.resolve_left (not_not.2 h1)⟩
    · rintro (h0 | ⟨h1, h⟩)
      · exact ⟨by omega, .inl (by omega)⟩
      · exact ⟨by omega, .inr h⟩
  simp only [pollChecks, within_eq, hp]
  rfl

/-- The rows of the lists, the ring, the picture, the capture unit, playout and overlay. -/
def headTable (r : List Byte) : List Check := (startTable r).take 30

/-- The rows of the lamp unit, the exposure unit, chainage, link and head bus. -/
def bodyTable (r : List Byte) : List Check := ((startTable r).drop 60).take 29

theorem headTable_eq (r : List Byte) :
    regionChecks (parseCfg r) ++ captureChecks r (parseCfg r) ++ pictureChecks r (parseCfg r) = headTable r := by
  iterate 30 refine congrArg₂ List.cons (row_eq (by
    simp [parseCfg, Config.maxStores, visibleRows, visibleCols, cellWidth, cellHeight, and_assoc])) ?_
  rfl

theorem bodyTable_eq (r : List Byte) :
    lampChecks (parseCfg r) ++ exposureChecks r (parseCfg r) ++ linkChecks r (parseCfg r) = bodyTable r := by
  iterate 29 refine congrArg₂ List.cons (row_eq (by simp [parseCfg, and_assoc])) ?_
  rfl

theorem configChecks_eq (r : List Byte) : configChecks r = startTable r := by
  have htable : startTable r = headTable r ++ (List.range 6).flatMap (channelChecks r) ++ bodyTable r
      ++ (List.range 8).flatMap (pollChecks r) := by
    simp only [funext (channelChecks_eq r), funext (pollChecks_eq r)]
    rfl
  rw [htable, ← headTable_eq, ← bodyTable_eq]
  simp only [configChecks, List.append_assoc]

end Sys2Proof.Proofs

namespace Sys2Proof.Proofs

open Sys2Proof.Machine Sys2Proof.Safety Sys2Proof.Laws

/-! ## The fields of the record -/

theorem flagAt_eq (r : List Byte) (i : Nat) : flagAt r i = decide (u8 r i ≠ 0) := by
  rw [flagAt, Bool.eq_iff_iff, bne_iff_ne, decide_eq_true_iff, u8, ne_eq, ne_eq, ← BitVec.toNat_inj]
  rfl

theorem lampModeOf_eq : ∀ n : Nat, lampModeOf n = [LampMode.off, .steady, .strobe].getD n .off
  | 0 | 1 | 2 => rfl
  | n + 3 => by simp [lampModeOf]

theorem lampControlOf_eq : ∀ n : Nat, lampControlOf n = [LampControl.auto, .manual].getD n .manual
  | 0 | 1 => rfl
  | n + 2 => by simp [lampControlOf]

theorem pollRoleOf_eq : ∀ n : Nat, pollRoleOf n = [PollRole.general, .temperature].getD n .general
  | 0 | 1 => rfl
  | n + 2 => by simp [pollRoleOf]

/-! ## An accepted load -/

/-- Every byte of the record at an aligned base is reached. -/
theorem readConfig_reached {s : State} (hp : s.part = .loading) (he : s.errors = []) (hb : s.workBase.toNat + 0x284 ≤ 2 ^ 32) :
    portReadSome configAssigns s.workBase.toNat 256 s = some (recordBytes configAssigns s.mem s.workBase.toNat 256) :=
  portReadSome_reached (by simp [portOpen, hp]) fun i hi _ => by simp [he, portOk_nil]; omega

theorem exec_configurationLoad {m : Nat} {s : State} {l : Loading} (hl : s.loading = some l) (hq : l.preparing = false) :
    exec (.configurationLoad m) s = .next (configurationLoadOp l (advance m s)) := by
  change execConfigurationLoad m s = _
  simp [execConfigurationLoad, hl, hq]

theorem configurationLoad_accepted {m : Nat} {s : State} {l : Loading} (hp : s.part = .loading) (hl : s.loading = some l)
    (hq : l.preparing = false) (he : s.errors = []) (hb : s.workBase.toNat + 0x284 ≤ 2 ^ 32)
    (hf : firstFailure (recordBytes configAssigns s.mem s.workBase.toNat 256) = none) :
    exec (.configurationLoad m) s
      = .next (takeConfig l (parseCfg (recordBytes configAssigns s.mem s.workBase.toNat 256)) (advance m s)) := by
  rw [exec_configurationLoad hl hq]
  simp only [configurationLoadOp, readConfig_reached (s := advance m s) hp he hb]
  simp only [advance, hf]

theorem ok_of_accepted {r : List Byte} (hf : firstFailure r = none) : ∀ b ∈ startTable r, b.ok = true := by
  rw [firstFailure, configChecks_eq, List.find?_eq_none] at hf
  exact fun b hb => by simpa using hf b hb

theorem sameList_iff (a b : Cfg) : sameList a b = true ↔
    (a.listBase, a.slots, a.eventBase, a.eventCount) = (b.listBase, b.slots, b.eventBase, b.eventCount) := by
  simp only [sameList, Bool.and_eq_true, beq_iff_eq, Prod.mk.injEq, and_assoc]

theorem sameRing_iff (a b : Cfg) : sameRing a b = true ↔
    (a.ringBase, a.stores, a.stride, a.width, a.height) = (b.ringBase, b.stores, b.stride, b.width, b.height) := by
  simp only [sameRing, Bool.and_eq_true, beq_iff_eq, Prod.mk.injEq, and_assoc]

theorem changed_iff {o : StartOrigin} (ho : o = .halted) {same : Bool} {p : Prop} (h : same = true ↔ p) :
    ((o == .off || !same) = true ↔ ¬ p) := by
  rw [ho, ← h]
  cases same <;> simp

/-- The pan stays exactly where the cell scale does (R70). -/
theorem cellWidth_inj (a b : Cfg) : cellWidth a = cellWidth b ↔ a.scale = b.scale := by
  unfold cellWidth
  omega

theorem takenCells (old new : Cfg) (o : Overlay) (i : Nat) (c : Cell) (h : o.cells[i]? = some c) :
    (overlayTakeConfig old new o).cells[i]? = some (if c.layer = 3 ∧ inStampField new i = false then {} else c) := by
  simp [overlayTakeConfig, h]

theorem takenChannels (cfg : Cfg) (l : Lamp) (i : Nat) (c : Channel) (k : ChannelCfg) (h : l.channels[i]? = some c)
    (hk : cfg.channels[i]? = some k) : (lampTakeConfig cfg l).channels[i]? = some
      ⟨k.mode, k.control, k.iFull, k.manual, k.standby, c.applied⟩ := by
  simp [lampTakeConfig, List.getElem?_zipWith, h, hk]

theorem takenTempPresent (cfg : Cfg) (l : Lamp) :
    (lampTakeConfig cfg l).tempPresent = true ↔ ∃ e ∈ cfg.poll, e.enable = true ∧ e.role = .temperature := by
  simp [lampTakeConfig]

/-- Settles O7: the record's fields, then the state the load gives, block by block. -/
theorem acceptedLoadTakesValues : Obligations.AcceptedLoadTakesValues := by
  intro m s l hp hl hq he hb r hf cfg list ring channel poll flag
  have hcfg : channelOf r = channel ∧ pollEntryOf r = poll ∧ flagAt r = flag := by
    refine ⟨funext fun i => ?_, funext fun j => ?_, funext (flagAt_eq r)⟩
    · rw [channelOf, lampModeOf_eq, lampControlOf_eq]
    · rw [pollEntryOf, flagAt_eq, pollRoleOf_eq]
  obtain ⟨hchannel, hpoll, hflag⟩ := hcfg
  refine ⟨ok_of_accepted hf, ?_, _, configurationLoad_accepted hp hl hq he hb hf, hp, ?_, rfl, rfl, rfl, rfl, rfl, rfl, rfl,
    rfl, rfl, rfl, rfl, rfl, rfl, takenChannels _ _, takenTempPresent _ _, rfl, rfl, rfl, rfl, takenCells _ _ _, ?_⟩
  · rw [← hchannel, ← hpoll, ← hflag]
    rfl
  · exact ⟨_, rfl, rfl, rfl, fun ho => by simp [ho],
      fun ho => ⟨changed_iff ho ((sameList_iff _ _).trans eq_comm), changed_iff ho ((sameRing_iff _ _).trans eq_comm)⟩⟩
  · simp only [← cellWidth_inj]
    rfl

end Sys2Proof.Proofs

namespace Sys2Proof.Proofs

open Sys2Proof.Machine Sys2Proof.Safety Sys2Proof.Laws

/-! ## The table of checks -/

theorem configAssigns_iff (i : Nat) : configAssigns i = true ↔ AssignedInRecord i := by
  simp [configAssigns, AssignedInRecord, and_assoc]

/-- The offsets of the rows do not depend on the record, and they rise. -/
theorem startTable_rising (r : List Byte) : (startTable r).Pairwise fun a b => a.offset ≤ b.offset := by
  have hoffsets : (startTable r).map Check.offset = (startTable []).map Check.offset := rfl
  have hrising : ((startTable []).map Check.offset).IsChain (· ≤ ·) := by decide +kernel
  rw [← hoffsets, List.isChain_iff_pairwise, List.pairwise_map] at hrising
  exact hrising

/-- The refusing check is the first row that fails. -/
theorem refusing_row {r : List Byte} {k : Check} (hf : firstFailure r = some k) :
    ∃ before after, startTable r = before ++ k :: after ∧ k.ok = false ∧ ∀ b ∈ before, b.ok = true := by
  rw [firstFailure, configChecks_eq, List.find?_eq_some_iff_append] at hf
  obtain ⟨hk, before, after, heq, hbefore⟩ := hf
  exact ⟨before, after, heq, by simpa using hk, fun b hb => by simpa using hbefore b hb⟩

/-! ## The status record -/

theorem statusPoll_length (p : PollSlot) : (statusPoll p).length = 8 := by
  simp [statusPoll, le16, padTo_length]

theorem statusPart_length (part : PartState) (s : State) : (statusPart part s).length = 24 := rfl

theorem statusCapture_length (s : State) : (statusCapture s).length = 20 := rfl

theorem statusPlayout_length (p : Playout) : (statusPlayout p).length = 16 := rfl

theorem statusLamp_length (l : Lamp) : (statusLamp l).length = 23 := rfl

theorem statusExposure_length (e : Exposure) : (statusExposure e).length = 19 := rfl

theorem statusChainage_length (e : Exposure) (c : Chainage) : (statusChainage e c).length = 26 := rfl

theorem statusRecord_length (part : PartState) (s : State) : (statusRecord part s).length = 256 := by
  simp only [statusRecord, List.length_append, statusPart_length, statusCapture_length, statusPlayout_length, statusLamp_length,
    statusExposure_length, statusChainage_length, List.length_flatMap, statusPoll_length]
  rfl

/-- The record begins with the part control's bytes. -/
theorem statusRecord_getD {part : PartState} {s : State} {i : Nat} (h : i < 24) :
    (statusRecord part s).getD i 0 = (statusPart part s).getD i 0 := by
  simp only [statusRecord, List.append_assoc]
  exact List.getD_append _ _ _ _ h

/-- The part state, the refusal code and the refusal offset in the record (manual section 12.5). -/
theorem statusRecord_head (part : PartState) (s : State) :
    (statusRecord part s).getD 4 0 = byte part.code ∧ (statusRecord part s).getD 6 0 = byte s.refusalCode
      ∧ (statusRecord part s).getD 8 0 = byte s.refusalOffset
      ∧ (statusRecord part s).getD 9 0 = byte (s.refusalOffset / 256) :=
  ⟨statusRecord_getD (by decide), statusRecord_getD (by decide), statusRecord_getD (by decide), statusRecord_getD (by decide)⟩

/-! ## A refused START (R6) -/

/-- The lamp update of the state a refused START returns to. -/
def refusedLamp (part : PartState) (s : State) : Lamp × List Event :=
  lampUpdate part s.cfg.stillLevel { s.lamp with boost := false, strobe := false }

/-- The status record with the refusal. -/
def refusalRecord (part : PartState) (k : Check) (s : State) : List Byte :=
  statusRecord part { s with refusalCode := k.code, refusalOffset := k.offset }

theorem refusalRecord_head (part : PartState) (k : Check) (s : State) :
    (refusalRecord part k s).getD 4 0 = byte part.code ∧ (refusalRecord part k s).getD 6 0 = byte k.code
      ∧ (refusalRecord part k s).getD 8 0 = byte k.offset ∧ (refusalRecord part k s).getD 9 0 = byte (k.offset / 256) :=
  statusRecord_head part _

/-- The record, then the events of the lamp update, then FAULT (log entry 9). -/
def refusalWrites (part : PartState) (k : Check) (s : State) : List Act :=
  .store (s.workBase.toNat + 0x100) (refusalRecord part k s) :: events (refusedLamp part s).2 ++ [.attention attFault]

/-- Everything else of a refused START: the timers of HALTED run again. -/
def refused (origin : StartOrigin) (k : Check) (m : Nat) (s : State) : State :=
  { s with
    now := max s.now m, part := origin.part, loading := none, refusalCode := k.code, refusalOffset := k.offset
    lamp := (refusedLamp origin.part s).1, chainage := s.chainage.setNotRunning true
    playout := { s.playout with
      timer := if origin = .off then s.playout.timer else some (max s.now m + outputPeriod s.cfg) }
    link := { s.link with silence := if origin = .off then s.link.silence
      else if s.link.state = .lost then none else some (max s.now m + s.cfg.silenceMs * 1000) } }

/-- The return from LOADING but for the lamps (R6, R41, R126). -/
def resumed (origin : StartOrigin) (s : State) : State :=
  { s with
    part := origin.part, loading := none, chainage := s.chainage.setNotRunning true
    playout := { s.playout with timer := if origin = .off then s.playout.timer else some (s.now + outputPeriod s.cfg) }
    link := { s.link with silence := if origin = .off then s.link.silence
      else if s.link.state = .lost then none else some (s.now + s.cfg.silenceMs * 1000) } }

theorem lampEnter_origin (origin : StartOrigin) (cfg : Cfg) (l : Lamp) : lampEnter origin.part cfg l =
    lampUpdate origin.part cfg.stillLevel { l with boost := false, strobe := false } := by
  have hlit : origin.part.lit = false := by cases origin <;> rfl
  simp only [lampEnter, hlit, Bool.and_false]

theorem returnFromLoading_eq (origin : StartOrigin) (s : State) :
    returnFromLoading origin s = lampDo (refusedLamp origin.part s) (resumed origin s) := by
  rw [refusedLamp, ← lampEnter_origin]
  cases origin <;> rfl

/-- The state with the refusal recorded, in the status record too. -/
def recorded (part : PartState) (k : Check) (s : State) : State :=
  { s with
    refusalCode := k.code, refusalOffset := k.offset
    mem := storeBytes s.mem (s.workBase.toNat + 0x100) (refusalRecord part k s) }

theorem writeRefusal_eq {part : PartState} {k : Check} {s : State} (hp : s.part = .loading) (he : s.errors = [])
    (hb : s.workBase.toNat + 0x284 ≤ 2 ^ 32) : writeStatus s.workBase.toNat part
      { s with refusalCode := k.code, refusalOffset := k.offset } = recorded part k s :=
  portWrite_ok (by simp [portOpen, hp]) he (by rw [statusRecord_length]; omega)

/-- The lamps on the return: in OFF they go dark, in HALTED their events can be written. -/
theorem lampDo_refused {origin : StartOrigin} {w v : State} (ho : origin = .halted → Ready w v) (s : State) :
    lampDo (refusedLamp origin.part s) (put w v)
      = put ((events (refusedLamp origin.part s).2).foldl act w) { v with lamp := (refusedLamp origin.part s).1 } := by
  cases origin with
  | off =>
    have hdark : (refusedLamp StartOrigin.off.part s).2 = [] := congrArg Prod.snd (lampUpdate_unlit (.inl rfl) _ _)
    rw [lampDo, hdark]
    rfl
  | halted => exact lampDo_ready (ho rfl) _

/-- The refused START but for its lamp update. -/
def unlampedRefusal (origin : StartOrigin) (k : Check) (m : Nat) (s : State) : State :=
  { refused origin k m s with lamp := s.lamp }

theorem resumed_recorded (origin : StartOrigin) (k : Check) (m : Nat) (s : State) :
    resumed origin (recorded origin.part k (advance m s)) =
      put (act { s with part := origin.part } (.store (s.workBase.toNat + 0x100) (refusalRecord origin.part k s)))
        (unlampedRefusal origin k m s) := by
  have hrecord : refusalRecord origin.part k (advance m s) = refusalRecord origin.part k s := rfl
  rw [recorded, hrecord]
  rfl

theorem refuseStart_eq {origin : StartOrigin} {k : Check} {m : Nat} {s : State} (hp : s.part = .loading) (he : s.errors = [])
    (hb : s.workBase.toNat + 0x284 ≤ 2 ^ 32) (hr : origin = .halted → RegionsOk s) : refuseStart origin k (advance m s) =
      put ((refusalWrites origin.part k s).foldl act { s with part := origin.part }) (refused origin k m s) := by
  have hready (ho : origin = .halted) : Ready (act { s with part := origin.part }
      (.store (s.workBase.toNat + 0x100) (refusalRecord origin.part k s))) (unlampedRefusal origin k m s) :=
    have hacts := (ready_self (s := { s with part := origin.part }) (hr ho) (.inr (.inr (by rw [ho]; rfl)))).acts
      [.store (s.workBase.toNat + 0x100) (refusalRecord origin.part k s)]
    hacts.change (u := unlampedRefusal origin k m s)
  rw [refuseStart, writeRefusal_eq (by exact hp) (by exact he) (by exact hb), onward_of_ne (by simp [recorded, advance, hp]),
    returnFromLoading_eq, resumed_recorded, refusalWrites, List.cons_append, List.foldl_cons, List.foldl_append]
  have hlamp := lampDo_refused hready s
  rw [show refusedLamp origin.part (recorded origin.part k (advance m s)) = refusedLamp origin.part s from rfl, hlamp,
    onward_of_ne (by cases origin <;> simp [put, unlampedRefusal, refused, StartOrigin.part])]
  rfl

theorem configurationLoad_refused {m : Nat} {s : State} {l : Loading} {k : Check} (hp : s.part = .loading)
    (hl : s.loading = some l) (hq : l.preparing = false) (he : s.errors = []) (hb : s.workBase.toNat + 0x284 ≤ 2 ^ 32)
    (hf : firstFailure (recordBytes configAssigns s.mem s.workBase.toNat 256) = some k) :
    exec (.configurationLoad m) s = .next (refuseStart l.origin k (advance m s)) := by
  rw [exec_configurationLoad hl hq]
  simp only [configurationLoadOp, readConfig_reached (s := advance m s) hp he hb]
  simp only [advance, hf]

section Refusal

variable {origin : StartOrigin} {k : Check} {s : State}

/-- The state in which a refused START has stored its record. -/
def afterRecord (origin : StartOrigin) (k : Check) (s : State) : State :=
  act { s with part := origin.part } (.store (s.workBase.toNat + 0x100) (refusalRecord origin.part k s))

theorem afterRecord_mem : (afterRecord origin k s).mem
    = storeBytes s.mem (s.workBase.toNat + 0x100) (refusalRecord origin.part k s) := by
  simp only [afterRecord, act]

theorem afterRecord_list : (afterRecord origin k s).list = s.list := by
  simp only [afterRecord, act]

theorem afterRecord_eventList : eventList (afterRecord origin k s) = eventList s := by
  simp only [eventList, afterRecord, act]

theorem refusalWrites_foldl : (refusalWrites origin.part k s).foldl act { s with part := origin.part } =
    act ((events (refusedLamp origin.part s).2).foldl act (afterRecord origin k s)) (.attention attFault) := by
  rw [refusalWrites, List.cons_append, List.foldl_cons, List.foldl_append,
    afterRecord, List.foldl_cons, List.foldl_nil]

theorem afterRecord_ready (hr : origin = .halted → RegionsOk s) (ho : origin = .halted) :
    RegionsOk (afterRecord origin k s) ∧ Working (afterRecord origin k s) :=
  have hw : Working { s with part := origin.part } := .inr (.inr (by rw [ho]; rfl))
  have ha := acted_act (a := .store (s.workBase.toNat + 0x100) (refusalRecord origin.part k s))
    (s := { s with part := origin.part }) (hr ho) hw
  ⟨ha.regionsOk (hr ho), ha.working hw⟩

/-- The events of the lamp update write the event list and its cursor alone; there are none in OFF. -/
theorem refusedEvents_frame (hr : origin = .halted → RegionsOk s) {t : State}
    (ht : t = (events (refusedLamp origin.part s).2).foldl act (afterRecord origin k s)) :
    SameOutside [eventList s] (afterRecord origin k s) t
      ∧ t.list = cursorAt s.list t.list.evIndex t.list.evLap t.list.missed := by
  cases origin with
  | off =>
    have hdark : (refusedLamp StartOrigin.off.part s).2 = [] := congrArg Prod.snd (lampUpdate_unlit (.inl rfl) _ _)
    rw [ht, hdark]
    exact ⟨fun _ _ => rfl, rfl⟩
  | halted =>
    obtain ⟨hregions, hworking⟩ := afterRecord_ready (k := k) hr rfl
    have hlist := (acted_acts (as := events (refusedLamp StartOrigin.halted.part s).2) hregions hworking).list_eq
    have hmem := events_sameOutside (es := (refusedLamp StartOrigin.halted.part s).2) hregions hworking
    rw [← ht, afterRecord_list] at hlist
    rw [← ht, afterRecord_eventList] at hmem
    exact ⟨hmem, hlist⟩

theorem read_afterRecord_outside (hm : Memory.wf s.mem = true) {x : Nat} (hx : ¬ InRange (statusArea s.workBase.toNat) x) :
    Memory.read (afterRecord origin k s).mem x = Memory.read s.mem x := by
  rw [afterRecord_mem, read_storeBytes hm (by rw [refusalRecord, statusRecord_length]; exact hx)]

theorem read_afterRecord_inside (hm : Memory.wf s.mem = true) {i : Nat} (hi : i < 256) :
    Memory.read (afterRecord origin k s).mem (s.workBase.toNat + 0x100 + i) = (refusalRecord origin.part k s).getD i 0 := by
  rw [afterRecord_mem, read_storeBytes_inside hm (by rw [refusalRecord, statusRecord_length]; exact hi)]

end Refusal

/-- Settles O6: the table of checks, then the one next state of a refused START, field by field. -/
theorem refusedStartReturnsAndReports : Obligations.RefusedStartReturnsAndReports := by
  intro m s l k hp hl hq hm he hb hr r hf lamp record
  have hwrites := refusalWrites_foldl (origin := l.origin) (k := k) (s := s)
  obtain ⟨hevents, hlist⟩ := refusedEvents_frame (k := k) hr rfl
  refine ⟨configChecks_eq, configAssigns_iff, startTable_rising r, refusing_row hf, _,
    (configurationLoad_refused hp hl hq he hb hf).trans (congrArg _ (refuseStart_eq hp he hb hr)), rfl, rfl, rfl, rfl, ?_, ?_,
    ?_, ?_, ?_, rfl, ⟨rfl, rfl, rfl⟩, rfl, ?_, rfl, rfl⟩
  · rw [put_attention, hwrites]
    simp [act, attFault]
  · intro x hx
    rw [put_mem, hwrites]
    exact (hevents x fun p hmem => hx p (List.mem_cons_of_mem _ hmem)).trans
      (read_afterRecord_outside hm (hx _ List.mem_cons_self))
  · intro hapart
    have hread (i : Nat) (hi : i < 256) : Memory.read (put ((refusalWrites l.origin.part k s).foldl act
        { s with part := l.origin.part }) (refused l.origin k m s)).mem (s.workBase.toNat + 0x100 + i)
        = (refusalRecord l.origin.part k s).getD i 0 := by
      rw [put_mem, hwrites]
      refine (hevents _ fun p hmem => ?_).trans (read_afterRecord_inside hm hi)
      rw [List.mem_singleton.1 hmem]
      exact hapart _ (by simp only [InRange, statusArea]; omega)
    obtain ⟨hstate, hcode, hlow, hhigh⟩ := refusalRecord_head l.origin.part k s
    rw [hread 4 (by decide), hread 6 (by decide), hstate, hcode]
    refine ⟨rfl, rfl, ?_⟩
    have h9 := hread 9 (by decide)
    rw [show s.workBase.toNat + 0x100 + 9 = s.workBase.toNat + 0x108 + 1 by omega] at h9
    simp only [Memory.readList]
    rw [hread 8 (by decide), h9, hlow, hhigh, le16]
  · intro ho
    exact if_neg (by simp [ho])
  · intro ho
    exact if_pos ho
  · rw [put_list, hwrites]
    exact hlist

end Sys2Proof.Proofs

namespace Sys2Proof.Proofs

open Sys2Proof.Machine Sys2Proof.Safety Sys2Proof.Laws

/-! ## The head bus unit looks for work (R147, R150) -/

/-- RUNNING, with the regions in reach. -/
structure Reaching (s : State) : Prop where
  running : s.part = .running
  regions : RegionsOk s

theorem Reaching.working {s : State} (h : Reaching s) : Working s := .inl h.running

theorem Reaching.of_acted {s t : State} (h : Reaching s) (ha : Acted s t) : Reaching t :=
  ⟨ha.part.trans h.running, ha.regionsOk h.regions⟩

theorem Reaching.acted {s : State} (h : Reaching s) (as : List Act) : Acted s (as.foldl act s) :=
  acted_acts h.regions h.working

theorem Reaching.acts {s : State} (h : Reaching s) (as : List Act) : Reaching (as.foldl act s) := h.of_acted (h.acted as)

/-- The blocks may change, with the regions where they were. -/
theorem Reaching.change {s t : State} (h : Reaching s) (hp : t.part = s.part := by rfl) (hm : t.mem = s.mem := by rfl)
    (he : t.errors = s.errors := by rfl) (ha : t.areaBase = s.areaBase := by rfl) (hb : t.workBase = s.workBase := by rfl)
    (hc : t.cfg = s.cfg := by rfl) (hl : t.list = s.list := by rfl) : Reaching t where
  running := hp.trans h.running
  regions := by
    have hr := h.regions
    unfold RegionsOk at hr ⊢
    rw [hm, he, ha, hb, hc, hl]
    exact hr

/-! ### What a failure of waiting work does -/

theorem emitting_gainWriteEnd {v : Nat} {o : BusOutcome} {s : State} (ho : o ≠ .success) :
    emitting (gainWriteEnd v o s) = failedGain o v s := by
  have hw := afterWrite_failed s.exposure
  rw [gainWriteEnd, if_neg ho, failedGain]
  simp only [hw, emitting]
  change emitAll (if min 255 (s.exposure.failures + 1) = 3 then _ else _) _
    = if min 255 (s.exposure.failures + 1) = 3 then _ else _
  split <;> rfl

theorem emitting_pollEnd {j : Nat} {o : BusOutcome} {s : State} {p : Poll} (ho : o ≠ .success)
    (h : s.bus.polls[j]? = some p) : emitting (pollEnd j false o [] s) = failedPoll o j s := by
  have hd : s.bus.polls.getD j {} = p := by rw [List.getD_eq_getElem?_getD, h]; rfl
  have he : pollEnd j false o [] s = pollFailed j o s := if_neg ho
  rw [he, pollFailed, failedPoll, emitting, emitAll_eq]
  simp only [hd, updateAt_eq_set h, lampPollFailed_eq]
  split <;> simp

/-- The third failed gain write in a row is reported (R102). -/
def gainReport (o : BusOutcome) (v : Nat) (s : State) : List Act :=
  if (writeFailed s.exposure).failures = 3 then [.event (Event.gainWriteFailed v s.exposure.gainInEffect o)] else []

theorem failedGain_eq (o : BusOutcome) (v : Nat) (s : State) :
    failedGain o v s = (gainReport o v s).foldl act { s with exposure := writeFailed s.exposure } := by
  rw [failedGain, gainReport]
  split <;> rfl

/-- What a failed poll reports (R81, R152). -/
def pollReport (o : BusOutcome) (j : Nat) (s : State) : List Act :=
  let p := s.bus.polls.getD j {}
  events ((if min 255 (p.slot.failures + 1) = 4 then [Event.pollFailing j p.entry.address o] else [])
    ++ (if p.entry.role = .temperature then tempMissed s.part s.cfg s.lamp else (s.lamp, [])).2)

/-- What a failed poll changes besides (R81, R152). -/
def missedPoll (j : Nat) (s : State) : State :=
  let p := s.bus.polls.getD j {}
  { s with
    lamp := (if p.entry.role = .temperature then tempMissed s.part s.cfg s.lamp else (s.lamp, [])).1
    bus := { s.bus with
      polls := s.bus.polls.set j { p with slot := { p.slot with failures := min 255 (p.slot.failures + 1) } } } }

theorem failedPoll_eq (o : BusOutcome) (j : Nat) (s : State) :
    failedPoll o j s = (pollReport o j s).foldl act (missedPoll j s) := rfl

/-! ### One thing after another in FAULT (R147) -/

/-- The retry count and the busy timer at rest. -/
def rested (s : State) : State := { s with bus := { s.bus with retries := 0, busyTimer := none } }

/-- In RUNNING, the unit in FAULT has no transaction in hand. -/
structure Draining (s : State) : Prop extends Reaching s where
  fault : s.bus.state = .fault
  free : s.bus.inHand = none
  hosts : ∀ h ∈ s.bus.queue, h.slot + 64 ≤ 2 ^ 32 ∧ (h.buffered = true → h.buffer + h.writeLen ≤ 2 ^ 32)

theorem Draining.rested {s : State} (h : Draining s) : Draining (rested s) := { h with toReaching := h.toReaching.change }

theorem duePoll_eq (s : State) : duePoll s.bus.polls = (dueEntries s).head? := by
  rw [dueEntries, List.head?_filter]
  rfl

theorem mem_dueEntries {j : Nat} {s : State} (h : j ∈ dueEntries s) : j < s.bus.polls.length := by
  simp only [dueEntries, List.mem_filter, List.mem_range] at h
  exact h.1

theorem serveBus_none {s : State} (n : Nat) (h : takeNext s = none) : serveBus n s = s := by
  cases n with
  | zero => rfl
  | succ n =>
    rw [serveBus, h]
    split <;> rfl

/-- What is taken in FAULT ends at once. -/
theorem serveBus_ends {s u : State} (n : Nat) (h : Draining s) (hu : takeNext s = some u) (hf : u.bus.state = .fault)
    (hi : u.bus.inHand.isSome = true) : serveBus (n + 1) s = serveBus n (txnEnd .fault .busFault 0 [] u) := by
  have hm : mayTake s = true := by simp [mayTake, h.running, h.fault, h.free]
  rw [serveBus, if_pos hm, hu]
  exact if_pos ⟨hf, hi⟩

theorem takeIntoHand_fault {x : Txn} {s : State} (h : s.bus.state = .fault) :
    takeIntoHand x s = { s with bus := { s.bus with inHand := some x, retries := 0 } } := by
  simp only [takeIntoHand, h, if_true]

/-- The pending gain update of a unit in FAULT fails (R102, R147). -/
def gainDrained (g : Nat) (s : State) : State :=
  failedGain .busFault g { s with exposure := writing g s.exposure, bus := { s.bus with pendingGain := none } }

theorem takeNext_gain {s : State} {g : Nat} (hg : s.bus.pendingGain = some g) : takeNext s = some (takeIntoHand
    (gainTxn s.cfg g) { s with exposure := gainStarted g s.exposure, bus := { s.bus with pendingGain := none } }) := by
  simp only [takeNext, hg]

theorem getElem?_dueEntries {s : State} {j : Nat} (h : j ∈ dueEntries s) : s.bus.polls[j]? = some (s.bus.polls.getD j {}) := by
  rw [List.getD_eq_getElem?_getD, List.getElem?_eq_getElem (mem_dueEntries h)]
  rfl

theorem takeNext_poll {s : State} {j : Nat} {js : List Nat} (hg : s.bus.pendingGain = none) (hj : dueEntries s = j :: js) :
    takeNext s = some (takeIntoHand (pollTxn j (s.bus.polls.getD j {}).entry) (dueTaken j s)) := by
  have hp := getElem?_dueEntries (s := s) (j := j) (by rw [hj]; exact List.mem_cons_self)
  rw [dueTaken, ← updateAt_eq_set (f := fun p => { p with due := false }) hp]
  simp only [takeNext, hg, duePoll_eq, hj, List.head?_cons]

/-- The write bytes of a host transfer (R154). -/
def hostBytes (x : HostTransfer) (s : State) : List Byte :=
  if x.buffered then Memory.readList s.mem x.buffer x.writeLen else x.inline.take x.writeLen

theorem takeNext_host {s : State} {x : HostTransfer} {xs : List HostTransfer} (h : Reaching s)
    (hx : x.buffered = true → x.buffer + x.writeLen ≤ 2 ^ 32) (hg : s.bus.pendingGain = none) (hj : dueEntries s = [])
    (hq : s.bus.queue = x :: xs) : takeNext s = some (takeIntoHand (hostTxn x (hostBytes x s)) s) := by
  have hread : takeHost x s = takeIntoHand (hostTxn x (hostBytes x s)) s := by
    rw [takeHost, hostBytes]
    split
    · rename_i hb
      rw [portRead_ok (portOpen_running h.running) h.regions.2.1 (hx hb)]
    · rfl
  rw [← hread]
  simp only [takeNext, hg, duePoll_eq, hj, List.head?_nil, hq]

theorem takeNext_none {s : State} (hg : s.bus.pendingGain = none) (hj : dueEntries s = []) (hq : s.bus.queue = []) :
    takeNext s = none := by
  simp only [takeNext, hg, duePoll_eq, hj, List.head?_nil, hq]

theorem serveBus_gain {s : State} {g : Nat} (n : Nat) (h : Draining s) (hg : s.bus.pendingGain = some g) :
    serveBus (n + 1) s = serveBus n (gainDrained g (rested s)) := by
  have hu := takeNext_gain hg
  rw [takeIntoHand_fault (by exact h.fault)] at hu
  rw [serveBus_ends n h hu (by exact h.fault) rfl, gainDrained, ← emitting_gainWriteEnd (by decide)]
  congr 2
  simp only [txnEnd, gainTxn, rested, h.fault, h.free]
  rfl

/-- A due poll of a unit in FAULT fails (R147, R152). -/
def pollDrained (j : Nat) (s : State) : State := failedPoll .busFault j (dueTaken j s)

theorem serveBus_poll {s : State} {j : Nat} {js : List Nat} (n : Nat) (h : Draining s) (hg : s.bus.pendingGain = none)
    (hj : dueEntries s = j :: js) : serveBus (n + 1) s = serveBus n (pollDrained j (rested s)) := by
  have hlt : j < s.bus.polls.length := mem_dueEntries (by rw [hj]; exact List.mem_cons_self)
  have hu := takeNext_poll hg hj
  rw [takeIntoHand_fault (by exact h.fault)] at hu
  rw [serveBus_ends n h hu (by exact h.fault) rfl, pollDrained, ← emitting_pollEnd (by decide)
    (p := { s.bus.polls.getD j {} with due := false }) (by simp [dueTaken, rested, hlt])]
  congr 2
  simp only [txnEnd, pollTxn, rested, dueTaken, h.fault, h.free]

/-- The oldest host transfer of a unit in FAULT ends BUS_FAULT (R147, R155). -/
def hostDrained (x : HostTransfer) (s : State) : State :=
  answered x.slot 15 0 0 { s with bus := { s.bus with queue := s.bus.queue.tail } }

theorem serveBus_host {s : State} {x : HostTransfer} {xs : List HostTransfer} (n : Nat) (h : Draining s)
    (hg : s.bus.pendingGain = none) (hj : dueEntries s = []) (hq : s.bus.queue = x :: xs) :
    serveBus (n + 1) s = serveBus n (hostDrained x (rested s)) := by
  obtain ⟨hslot, hbuffer⟩ := h.hosts x (by rw [hq]; exact List.mem_cons_self)
  have hu := takeNext_host h.toReaching hbuffer hg hj hq
  rw [takeIntoHand_fault h.fault] at hu
  rw [serveBus_ends n h hu h.fault rfl]
  congr 1
  simp only [txnEnd, hostTxn, hostTransferEnd, reduceCtorEq, if_false]
  refine (complete_working ?_ ?_ hslot).trans ?_
  · exact .inl h.running
  · exact h.regions.2.1
  · simp only [hostDrained, rested, h.fault, h.free]
    rfl

/-! ### What looking for work leaves unchanged -/

/-- What the head bus unit leaves as it was when it looks for work. -/
structure Serves (s t : State) : Prop where
  frame : t = { s with
    mem := t.mem, attention := t.attention, list := t.list, lamp := t.lamp, exposure := t.exposure, bus := t.bus }
  planT : t.exposure.planT = s.exposure.planT
  planL : t.exposure.planL = s.exposure.planL
  reaching : Reaching s → Reaching t

theorem Serves.refl (s : State) : Serves s s := ⟨rfl, rfl, rfl, id⟩

theorem Serves.trans {s t u : State} (h : Serves s t) (h' : Serves t u) : Serves s u where
  frame := by rw [h'.frame, h.frame]
  planT := h'.planT.trans h.planT
  planL := h'.planL.trans h.planL
  reaching := h'.reaching ∘ h.reaching

theorem serves_acts {s : State} (h : Reaching s) (as : List Act) : Serves s (as.foldl act s) := by
  have ha := h.acted as
  have hx : (as.foldl act s).exposure = s.exposure := by rw [ha.frame]; rfl
  refine ⟨?_, by rw [hx], by rw [hx], fun _ => h.acts as⟩
  rw [ha.frame]
  rfl

/-- A change of the lamp unit, the gain path and the head bus. -/
theorem serves_change {s t : State} (hf : t = { s with lamp := t.lamp, exposure := t.exposure, bus := t.bus } := by rfl)
    (hT : t.exposure.planT = s.exposure.planT := by rfl) (hL : t.exposure.planL = s.exposure.planL := by rfl) : Serves s t where
  frame := by rw [hf]
  planT := hT
  planL := hL
  reaching h := by rw [hf]; exact h.change

theorem acts_bus {s : State} (h : Reaching s) (as : List Act) : (as.foldl act s).bus = s.bus := by
  rw [(h.acted as).frame]
  rfl

theorem gainDrained_serves {g : Nat} {s : State} (h : Reaching s) : Serves s (gainDrained g s) := by
  rw [gainDrained, failedGain_eq]
  exact .trans (t := { s with
    exposure := writeFailed (writing g s.exposure), bus := { s.bus with pendingGain := none } }) serves_change
    (serves_acts h.change _)

theorem gainDrained_bus {g : Nat} {s : State} (h : Reaching s) : (gainDrained g s).bus = { s.bus with pendingGain := none } := by
  rw [gainDrained, failedGain_eq]
  exact acts_bus (s := { s with
    exposure := writeFailed (writing g s.exposure), bus := { s.bus with pendingGain := none } }) h.change _

theorem pollDrained_serves {j : Nat} {s : State} (h : Reaching s) : Serves s (pollDrained j s) := by
  rw [pollDrained, failedPoll_eq]
  exact .trans (t := missedPoll j (dueTaken j s)) serves_change (serves_acts h.change _)

theorem pollDrained_bus {j : Nat} {s : State} (h : Reaching s) (hj : j < s.bus.polls.length) :
    ∃ p : Poll, p.due = false ∧ (pollDrained j s).bus = { s.bus with polls := s.bus.polls.set j p } := by
  rw [pollDrained, failedPoll_eq, acts_bus (s := missedPoll j (dueTaken j s)) h.change]
  refine ⟨_, ?_, congrArg (fun polls => { s.bus with polls := polls }) (List.set_set ..)⟩
  simp [dueTaken, hj]

/-- The due entries but the first, once its flag is clear. -/
theorem dueEntries_tail {s t : State} {j : Nat} {js : List Nat} {p : Poll} (hs : dueEntries s = j :: js) (hp : p.due = false)
    (ht : t.bus.polls = s.bus.polls.set j p) : dueEntries t = js := by
  have hnodup : (dueEntries s).Nodup := List.Nodup.filter _ List.nodup_range
  have hne : ∀ k ∈ js, (k != j) = true := by
    rw [hs, List.nodup_cons] at hnodup
    intro k hk
    simpa using fun he : k = j => hnodup.1 (he ▸ hk)
  calc dueEntries t = (dueEntries s).filter (· != j) := by
        rw [dueEntries, dueEntries, ht, List.length_set, List.filter_filter]
        refine List.filter_congr fun k hk => ?_
        have hk := List.mem_range.1 hk
        by_cases he : k = j
        · simp [he, hp, he ▸ hk]
        · simp [he, List.getElem?_set_ne (Ne.symm he)]
    _ = js := by
        rw [hs, List.filter_cons_of_neg (by simp), List.filter_eq_self.2 hne]

/-! ### Everything that waits, in the service order -/

/-- A unit in FAULT whose gain update, if any, has failed. -/
structure Drain (s : State) : Prop extends Draining s where
  retries : s.bus.retries = 0
  timer : s.bus.busyTimer = none
  gain : s.bus.pendingGain = none

theorem Drain.rested {s : State} (h : Drain s) : rested s = s := by
  rw [Proofs.rested, ← h.retries, ← h.timer]

/-- The entries may change, and the queue get shorter. -/
theorem Drain.of_bus {s t : State} (h : Drain s) (hr : Reaching t) {polls : List Poll} {queue : List HostTransfer}
    (hb : t.bus = { s.bus with polls := polls, queue := queue }) (hq : ∀ x ∈ queue, x ∈ s.bus.queue) : Drain t where
  toReaching := hr
  fault := by rw [hb]; exact h.fault
  free := by rw [hb]; exact h.free
  hosts := by rw [hb]; exact fun x hx => h.hosts x (hq x hx)
  retries := by rw [hb]; exact h.retries
  timer := by rw [hb]; exact h.timer
  gain := by rw [hb]; exact h.gain

/-- The host transfers that wait all end BUS_FAULT. -/
def hostsDrained (q : List HostTransfer) (s : State) : State :=
  q.foldl (fun u h => answered h.slot 15 0 0 u) { s with bus := { s.bus with queue := [] } }

theorem serveBus_hosts (n : Nat) : ∀ {q : List HostTransfer} {s : State}, Drain s → dueEntries s = [] → s.bus.queue = q →
    serveBus (q.length + n) s = hostsDrained q s
  | [], s, h, hj, hq => by
    rw [serveBus_none _ (takeNext_none h.gain hj hq), hostsDrained, List.foldl_nil, ← hq]
  | x :: xs, s, h, hj, hq => by
    have hnext : Drain (hostDrained x s) := by
      refine h.of_bus (polls := s.bus.polls) (queue := s.bus.queue.tail) ?_ rfl fun y hy => List.mem_of_mem_tail hy
      exact Reaching.acts (s := { s with bus := { s.bus with queue := s.bus.queue.tail } }) h.toReaching.change
        [.answer x.slot 15 0 0]
    rw [List.length_cons, Nat.add_right_comm, serveBus_host _ h.toDraining h.gain hj hq, h.rested,
      serveBus_hosts n hnext hj (by simp [hostDrained, answered, hq])]
    rfl

theorem serveBus_polls (n : Nat) : ∀ {js : List Nat} {s : State}, Drain s → dueEntries s = js →
    serveBus (js.length + s.bus.queue.length + n) s =
      hostsDrained s.bus.queue (js.foldl (fun u j => pollDrained j u) s)
  | [], s, h, hj => by
    rw [List.length_nil, Nat.zero_add, serveBus_hosts n h hj rfl, List.foldl_nil]
  | j :: js, s, h, hj => by
    have hlt : j < s.bus.polls.length := mem_dueEntries (by rw [hj]; exact List.mem_cons_self)
    obtain ⟨p, hp, hb⟩ := pollDrained_bus h.toReaching hlt
    have hnext : Drain (pollDrained j s) :=
      h.of_bus ((pollDrained_serves h.toReaching).reaching h.toReaching) (queue := s.bus.queue) hb fun x hx => hx
    have hq : (pollDrained j s).bus.queue = s.bus.queue := by rw [hb]
    rw [show (j :: js).length + s.bus.queue.length + n = js.length + s.bus.queue.length + n + 1 by simp; omega,
      serveBus_poll _ h.toDraining h.gain hj, h.rested, ← hq,
      serveBus_polls n hnext (dueEntries_tail hj hp (by rw [hb])), List.foldl_cons]

end Sys2Proof.Proofs

namespace Sys2Proof.Proofs

open Sys2Proof.Machine Sys2Proof.Safety Sys2Proof.Laws

/-! ## The head bus unit's work as one state (R147, R150) -/

theorem takesWork_gain {s : State} {g : Nat} (h : s.bus.pendingGain = some g) : takesWork s =
    taken (gainTxn s.cfg g) { s with exposure := writing g s.exposure, bus := { s.bus with pendingGain := none } } := by
  simp only [takesWork, h, gainTxn]

theorem takesWork_poll {s : State} {j : Nat} {js : List Nat} (h : s.bus.pendingGain = none) (hj : dueEntries s = j :: js) :
    takesWork s = taken (pollTxn j (s.bus.polls.getD j {}).entry) (dueTaken j s) := by
  simp only [takesWork, h, hj, pollTxn]

theorem takesWork_host {s : State} {x : HostTransfer} {xs : List HostTransfer} (h : s.bus.pendingGain = none)
    (hj : dueEntries s = []) (hq : s.bus.queue = x :: xs) : takesWork s = taken (hostTxn x (hostBytes x s)) s := by
  simp only [takesWork, h, hj, hq, hostTxn, hostBytes]

theorem takesWork_none {s : State} (h : s.bus.pendingGain = none) (hj : dueEntries s = []) (hq : s.bus.queue = []) :
    takesWork s = s := by
  simp only [takesWork, h, hj, hq]

theorem takeIntoHand_idle {x : Txn} {s : State} (h : s.bus.state = .idle) : takeIntoHand x s = taken x s := by
  simp only [takeIntoHand, taken, h, reduceCtorEq, if_false]
  split <;> rfl

/-- In IDLE the first thing that waits is taken into hand. -/
theorem takeNext_idle {s : State} (h : Reaching s) (hb : BusReachable s) (hi : s.bus.state = .idle) :
    (takeNext s).getD s = takesWork s := by
  obtain ⟨-, -, hhosts⟩ := hb
  match hg : s.bus.pendingGain, hj : dueEntries s, hq : s.bus.queue with
  | some g, _, _ =>
    rw [takesWork_gain hg, takeNext_gain hg, takeIntoHand_idle (by exact hi)]
    rfl
  | none, j :: js, _ => rw [takesWork_poll hg hj, takeNext_poll hg hj, takeIntoHand_idle (by exact hi), Option.getD_some]
  | none, [], x :: xs =>
    have hx := (hhosts x (by rw [hq]; exact List.mem_cons_self)).2
    rw [takesWork_host hg hj hq, takeNext_host h hx hg hj hq, takeIntoHand_idle hi, Option.getD_some]
  | none, [], [] => rw [takesWork_none hg hj hq, takeNext_none hg hj hq, Option.getD_none]

theorem taken_state (x : Txn) (s : State) : (taken x s).bus.state ≠ .fault := by
  simp only [taken]
  split <;> decide

theorem takesWork_state {s : State} (hi : s.bus.state = .idle) : (takesWork s).bus.state ≠ .fault := by
  match hg : s.bus.pendingGain, hj : dueEntries s, hq : s.bus.queue with
  | some g, _, _ => rw [takesWork_gain hg]; exact taken_state _ _
  | none, j :: js, _ => rw [takesWork_poll hg hj]; exact taken_state _ _
  | none, [], x :: xs => rw [takesWork_host hg hj hq]; exact taken_state _ _
  | none, [], [] => rw [takesWork_none hg hj hq, hi]; decide

theorem serveBus_idle {s : State} (n : Nat) (h : Reaching s) (hb : BusReachable s) (hi : s.bus.state = .idle)
    (hf : s.bus.inHand = none) : serveBus (n + 1) s = takesWork s := by
  have hm : mayTake s = true := by simp [mayTake, h.running, hi, hf]
  have htakes := takeNext_idle h hb hi
  have hstate := takesWork_state hi
  rw [serveBus, if_pos hm]
  cases hu : takeNext s with
  | none => rwa [hu] at htakes
  | some u =>
    rw [hu] at htakes
    rw [← htakes] at hstate ⊢
    exact if_neg fun hx => hstate hx.1

/-- In FAULT everything that waits fails in the service order. -/
theorem drained_gain {s : State} {g : Nat} (hg : s.bus.pendingGain = some g) : drained s =
    hostsDrained s.bus.queue ((dueEntries s).foldl (fun u j => pollDrained j u) (gainDrained g (rested s))) := by
  rw [drained, if_neg (by simp [hg])]
  simp only [hg]
  rfl

theorem drained_rest {s : State} (hg : s.bus.pendingGain = none) (hw : ¬ (dueEntries s = [] ∧ s.bus.queue = [])) : drained s =
    hostsDrained s.bus.queue ((dueEntries s).foldl (fun u j => pollDrained j u) (rested s)) := by
  rw [drained, if_neg fun hx => hw hx.2]
  simp only [hg, hostsDrained, pollDrained, rested]

theorem drained_none {s : State} (hg : s.bus.pendingGain = none) (hj : dueEntries s = []) (hq : s.bus.queue = []) :
    drained s = s := if_pos ⟨hg, hj, hq⟩

theorem drain_of_draining {s : State} (h : Draining s) (hg : s.bus.pendingGain = none) : Drain (rested s) :=
  { h.rested with retries := rfl, timer := rfl, gain := hg }

theorem drain_gainDrained {s : State} {g : Nat} (h : Draining s) : Drain (gainDrained g (rested s)) := by
  have hb := gainDrained_bus (g := g) h.rested.toReaching
  exact { toReaching := (gainDrained_serves h.rested.toReaching).reaching h.rested.toReaching
          fault := by rw [hb]; exact h.fault
          free := by rw [hb]; exact h.free
          hosts := by rw [hb]; exact h.hosts
          retries := by rw [hb]; rfl
          timer := by rw [hb]; rfl
          gain := by rw [hb] }

/-- Whatever is taken next, the retry count and the busy timer come to rest. -/
theorem serveBus_rested {s : State} (n : Nat) (h : Draining s) (hg : s.bus.pendingGain = none)
    (hw : ¬ (dueEntries s = [] ∧ s.bus.queue = [])) : serveBus (n + 1) s = serveBus (n + 1) (rested s) := by
  match hj : dueEntries s, hq : s.bus.queue with
  | j :: js, _ => rw [serveBus_poll n h hg hj, serveBus_poll n h.rested hg hj]; rfl
  | [], x :: xs => rw [serveBus_host n h hg hj hq, serveBus_host n h.rested hg hj hq]; rfl
  | [], [] => exact absurd ⟨hj, hq⟩ hw

theorem serveBus_fault {s : State} (h : Draining s) (hb : BusReachable s) : busServe s = drained s := by
  obtain ⟨hpolls, hqueue, -⟩ := hb
  have hdue : (dueEntries s).length ≤ 8 := by
    have hle := List.length_filter_le (fun j => (s.bus.polls.getD j {}).due) (List.range s.bus.polls.length)
    rw [List.length_range] at hle
    exact hle.trans hpolls.le
  obtain ⟨n, hn⟩ : ∃ n, 31 = (dueEntries s).length + s.bus.queue.length + n :=
    ⟨31 - ((dueEntries s).length + s.bus.queue.length), by omega⟩
  match hg : s.bus.pendingGain with
  | some g =>
    have hbus := gainDrained_bus (g := g) h.rested.toReaching
    have hdue' : dueEntries (gainDrained g (rested s)) = dueEntries s := by rw [dueEntries, hbus]; rfl
    have hserve := serveBus_polls n (drain_gainDrained (g := g) h) hdue'
    rw [hbus] at hserve
    rw [drained_gain hg, busServe, serveBus_gain 31 h hg, hn]
    exact hserve
  | none =>
    by_cases hw : dueEntries s = [] ∧ s.bus.queue = []
    · rw [drained_none hg hw.1 hw.2]
      exact serveBus_none _ (takeNext_none hg hw.1 hw.2)
    · have hserve := serveBus_polls (n + 1) (drain_of_draining h hg) (js := dueEntries s) rfl
      rw [drained_rest hg hw, busServe, serveBus_rested 31 h hg hw, hn]
      exact hserve

/-- The unit looks for work (R150, R157). -/
theorem busServe_served {s : State} (h : RegionsOk s) (hb : BusReachable s) : busServe s = served s := by
  by_cases hp : s.part = .running ∧ s.bus.inHand = none
  · obtain ⟨hrunning, hfree⟩ := hp
    have hreach : Reaching s := ⟨hrunning, h⟩
    rw [served, if_pos ⟨hrunning, hfree⟩]
    split
    · rename_i hi
      exact serveBus_idle 31 hreach hb hi hfree
    · split
      · rename_i hf
        exact serveBus_fault { toReaching := hreach, fault := hf, free := hfree, hosts := hb.2.2 } hb
      · rename_i hi hf
        exact if_neg (by simp [mayTake, hi, hf])
  · rw [served, if_neg hp]
    refine if_neg fun hm => hp ?_
    simp only [mayTake, Bool.and_eq_true, beq_iff_eq, Option.isNone_iff_eq_none] at hm
    exact ⟨hm.1.1, hm.2⟩

/-! ### What it leaves unchanged -/

theorem taken_serves {x : Txn} {s : State} : Serves s (taken x s) := serves_change

theorem takesWork_serves (s : State) : Serves s (takesWork s) := by
  match hg : s.bus.pendingGain, hj : dueEntries s, hq : s.bus.queue with
  | some g, _, _ =>
    rw [takesWork_gain hg]
    exact .trans (t := { s with exposure := writing g s.exposure, bus := { s.bus with pendingGain := none } }) serves_change
      taken_serves
  | none, j :: js, _ => rw [takesWork_poll hg hj]; exact .trans (t := dueTaken j s) serves_change taken_serves
  | none, [], x :: xs => rw [takesWork_host hg hj hq]; exact taken_serves
  | none, [], [] => rw [takesWork_none hg hj hq]; exact .refl s

theorem hostsDrained_eq (q : List HostTransfer) (s : State) : hostsDrained q s =
    (q.map fun h => Act.answer h.slot 15 0 0).foldl act { s with bus := { s.bus with queue := [] } } := by
  rw [List.foldl_map]
  rfl

theorem hostsDrained_serves {q : List HostTransfer} {s : State} (h : Reaching s) : Serves s (hostsDrained q s) := by
  rw [hostsDrained_eq]
  exact .trans (t := { s with bus := { s.bus with queue := [] } }) serves_change (serves_acts h.change _)

theorem pollsDrained_serves : ∀ {js : List Nat} {s : State}, Reaching s →
    Serves s (js.foldl (fun u j => pollDrained j u) s)
  | [], s, _ => .refl s
  | _ :: _, _, h =>
    have hd := pollDrained_serves h
    hd.trans (pollsDrained_serves (hd.reaching h))

theorem rested_serves (s : State) : Serves s (rested s) := serves_change

theorem gainRested_serves {g : Nat} {s : State} (h : Reaching s) : Serves s (gainDrained g (rested s)) :=
  (rested_serves s).trans (gainDrained_serves h.change)

theorem allDrained_serves {s t : State} {js : List Nat} {q : List HostTransfer} (h : Reaching s) (hs : Serves s t) :
    Serves s (hostsDrained q (js.foldl (fun u j => pollDrained j u) t)) :=
  have hp := hs.trans (pollsDrained_serves (hs.reaching h))
  hp.trans (hostsDrained_serves (hp.reaching h))

theorem drained_serves {s : State} (h : Reaching s) : Serves s (drained s) := by
  match hg : s.bus.pendingGain with
  | some g =>
    rw [drained_gain hg]
    exact allDrained_serves h (gainRested_serves h)
  | none =>
    by_cases hw : dueEntries s = [] ∧ s.bus.queue = []
    · rw [drained_none hg hw.1 hw.2]
      exact .refl s
    · rw [drained_rest hg hw]
      exact allDrained_serves h (rested_serves s)

theorem served_serves {s : State} (h : Reaching s) : Serves s (served s) := by
  unfold served
  split
  · split
    · exact takesWork_serves s
    · split
      · exact drained_serves h
      · exact .refl s
  · exact .refl s

/-! ### The plan of the next frame does not matter to it -/

/-- A plan fixed, and the still unit with its claim. -/
def planned (p : FramePlan) (x : Still) (s : State) : State :=
  { s with capture := { s.capture with plan := some p }, still := x }

section Planned

variable {p : FramePlan} {x : Still} {s : State}

theorem acts_planned {as : List Act} (h : Reaching s) : as.foldl act (planned p x s) = planned p x (as.foldl act s) := by
  have hput := acts_put (as := as) (v := planned p x s) h.regions h.working { working := h.working }
  rw [(h.acted as).frame]
  exact hput

theorem gainDrained_planned {g : Nat} (h : Reaching s) : gainDrained g (planned p x s) = planned p x (gainDrained g s) := by
  rw [gainDrained, gainDrained, failedGain_eq, failedGain_eq, ← acts_planned h.change]
  rfl

theorem pollDrained_planned {j : Nat} (h : Reaching s) : pollDrained j (planned p x s) = planned p x (pollDrained j s) := by
  rw [pollDrained, pollDrained, failedPoll_eq, failedPoll_eq,
    ← acts_planned (s := missedPoll j (dueTaken j s)) h.change]
  rfl

theorem pollsDrained_planned : ∀ {js : List Nat} {s : State}, Reaching s →
    js.foldl (fun u j => pollDrained j u) (planned p x s) = planned p x (js.foldl (fun u j => pollDrained j u) s)
  | [], _, _ => rfl
  | j :: js, s, h => by
    rw [List.foldl_cons, pollDrained_planned h, pollsDrained_planned ((pollDrained_serves h).reaching h), List.foldl_cons]

theorem hostsDrained_planned {q : List HostTransfer} (h : Reaching s) :
    hostsDrained q (planned p x s) = planned p x (hostsDrained q s) := by
  rw [hostsDrained_eq, hostsDrained_eq, ← acts_planned h.change]
  rfl

theorem allDrained_planned {js : List Nat} {q : List HostTransfer} (h : Reaching s) :
    hostsDrained q (js.foldl (fun u j => pollDrained j u) (planned p x s)) =
      planned p x (hostsDrained q (js.foldl (fun u j => pollDrained j u) s)) := by
  rw [pollsDrained_planned h, hostsDrained_planned ((pollsDrained_serves h).reaching h)]

theorem drained_planned (h : Reaching s) : drained (planned p x s) = planned p x (drained s) := by
  match hg : s.bus.pendingGain with
  | some g =>
    have hr : Reaching (rested s) := h.change
    rw [drained_gain (s := planned p x s) hg, drained_gain hg, ← allDrained_planned ((gainRested_serves h).reaching h),
      ← gainDrained_planned hr]
    rfl
  | none =>
    by_cases hw : dueEntries s = [] ∧ s.bus.queue = []
    · rw [drained_none hg hw.1 hw.2, drained_none (s := planned p x s) hg hw.1 hw.2]
    · have hr : Reaching (rested s) := h.change
      rw [drained_rest (s := planned p x s) hg hw, drained_rest hg hw, ← allDrained_planned hr]
      rfl

theorem takesWork_planned : takesWork (planned p x s) = planned p x (takesWork s) := by
  match hg : s.bus.pendingGain, hj : dueEntries s, hq : s.bus.queue with
  | some g, _, _ => rw [takesWork_gain (s := planned p x s) hg, takesWork_gain hg]; rfl
  | none, j :: js, _ => rw [takesWork_poll (s := planned p x s) hg hj, takesWork_poll hg hj]; rfl
  | none, [], y :: ys => rw [takesWork_host (s := planned p x s) hg hj hq, takesWork_host hg hj hq]; rfl
  | none, [], [] => rw [takesWork_none (s := planned p x s) hg hj hq, takesWork_none hg hj hq]

theorem served_planned (h : Reaching s) : served (planned p x s) = planned p x (served s) := by
  unfold served
  rw [drained_planned h, takesWork_planned]
  simp only [apply_ite (planned p x)]
  rfl

end Planned

end Sys2Proof.Proofs

namespace Sys2Proof.Proofs

open Sys2Proof.Machine Sys2Proof.Safety Sys2Proof.Laws

/-! ## The next frame waits, is triggered or is deferred (R22 to R25) -/

theorem storeHeader_le {s : State} {k : Nat} (h : RegionsOk s) (hk : k < s.cfg.stores) : storeBase s.cfg k + 64 ≤ 2 ^ 32 := by
  obtain ⟨-, -, -, -, -, -, -, hring, hstride⟩ := h
  have hle : (k + 1) * s.cfg.stride ≤ s.cfg.stores * s.cfg.stride := Nat.mul_le_mul_right _ hk
  rw [Nat.succ_mul] at hle
  unfold storeBase
  omega

theorem selectStore_lt {s : State} {k : Nat} (h : selectStore s = some k) : k < s.cfg.stores := by
  have hm := List.mem_of_find?_eq_some h
  simp only [selectionOrder, storesInUse, List.mem_map, List.mem_range] at hm
  obtain ⟨i, hi, rfl⟩ := hm
  exact Nat.mod_lt _ (by omega)

theorem updateAt_getD {α : Type} (l : List α) (k : Nat) (d : α) (f : α → α) :
    updateAt l k f = l.set k (f (l.getD k d)) := by
  by_cases hk : k < l.length
  · rw [updateAt_eq_set (List.getElem?_eq_getElem hk), List.getD_eq_getElem?_getD, List.getElem?_eq_getElem hk]
    rfl
  · rw [updateAt, List.set_eq_of_length_le (by omega), List.modify_eq_self (by omega)]

/-- A write in RUNNING, in reach. -/
theorem portWrite_reaching {bs : List Byte} {a : Nat} {s : State} (h : Reaching s) (hl : a + bs.length ≤ 2 ^ 32) :
    portWrite a bs s = act s (.store a bs) :=
  portWrite_ok (portOpen_running h.running) h.regions.2.1 hl

theorem onward_reaching {s : State} (h : Reaching s) (k : State → State) : onward s k = k s :=
  onward_of_ne (ne_faulted_of_working h.working)

theorem onward_stored {bs : List Byte} {a : Nat} {s : State} (h : Reaching s) (hl : a + bs.length ≤ 2 ^ 32)
    (k : State → State) : onward (portWrite a bs s) k = k (act s (.store a bs)) := by
  rw [portWrite_reaching h hl]
  exact onward_reaching (h.acts [.store a bs]) k

/-- The header of a store that is being filled (R25, R176). -/
def fillingWrites (k : Nat) (seq : Word) (s : State) : List Act :=
  [.store (storeBase s.cfg k) [1, 0], .store (storeBase s.cfg k + 4) (le32 seq.toNat),
   .store (storeBase s.cfg k + 40) (le32 s.playout.frames.toNat)]

theorem Reaching.act {s : State} (h : Reaching s) (a : Act) : Reaching (Safety.act s a) := h.acts [a]

theorem act_store_cfg (a : Nat) (bs : List Byte) (s : State) : (act s (.store a bs)).cfg = s.cfg := rfl

theorem act_store_playout (a : Nat) (bs : List Byte) (s : State) : (act s (.store a bs)).playout = s.playout := rfl

theorem writeFillingHeader_eq {k : Nat} {seq : Word} {s : State} (h : Reaching s) (hk : k < s.cfg.stores) :
    writeFillingHeader k seq s = (fillingWrites k seq s).foldl act s := by
  have hle := storeHeader_le h.regions hk
  have hword (n : Nat) : (le32 n).length = 4 := rfl
  rw [writeFillingHeader, onward_stored h (by simp; omega)]
  simp only [act_store_cfg]
  rw [onward_stored (h.act _) (by rw [hword]; omega)]
  simp only [act_store_cfg, act_store_playout]
  rw [portWrite_reaching ((h.act _).act _) (by rw [hword]; omega), fillingWrites, List.foldl_cons, List.foldl_cons,
    List.foldl_cons, List.foldl_nil]

/-- The table entry and the sequence of a frame at its trigger start (R25). -/
def filling (k : Nat) (s : State) : State :=
  updateStore k (fun e => { e with state := .filling, seq := s.capture.seq + 1, hold := false })
    { s with capture := { s.capture with seq := s.capture.seq + 1, selPtr := some k } }

theorem filling_ring (k : Nat) (s : State) : (filling k s).ring =
    s.ring.set k { storeAt s k with state := .filling, seq := s.capture.seq + 1, hold := false } :=
  updateAt_getD ..

/-- The claimed order notes the sequence of its boost frame (R160). -/
theorem startFrame_still (k : Nat) (p : FramePlan) (s : State) : (startFrame k p s).still =
    if p.boost then noteBoostSeq (s.capture.seq + 1) s.still else s.still := by
  have hstill : s.still = { s.still with orders := s.still.orders } := rfl
  rw [startFrame, noteBoostSeq]
  match ho : s.still.orders with
  | [] => cases p.boost <;> simp [← ho]
  | o :: os => cases p.boost <;> cases hc : o.claimed <;> simp [← ho, hc]

/-- The exposure begins (R25, R88). -/
def exposed (k : Nat) (p : FramePlan) (seq : Word) (s : State) : State :=
  { s with
    capture := { s.capture with
      trig := .exposing, prevTrigger := some (s.now, p.tCap), deferralOpen := false
      deadline := some (s.now + p.t + s.cfg.tRo + s.cfg.guardMs * 1000)
      frame := some { store := k, seq := seq, gain := s.exposure.gainInEffect
                      levels := s.lamp.channels.map (·.applied), autoLevel := s.lamp.lApp } }
    still := if p.boost then noteBoostSeq seq s.still else s.still }

theorem triggerStart_eq {k : Nat} {p : FramePlan} {s : State} (hp : s.capture.plan = some p) : triggerStart k s =
    onward (writeFillingHeader k (s.capture.seq + 1) (filling k s)) fun s' =>
      onward (lampDo (lampTriggerStart s'.part s'.cfg p s'.lamp) s') (exposed k p (s.capture.seq + 1)) := by
  rw [triggerStart, hp]
  rfl

/-- The state at the moment the exposure begins, its lamps lit. -/
def lit (k : Nat) (p : FramePlan) (s : State) : State :=
  { filling k s with lamp := (lampTriggerStart s.part s.cfg p s.lamp).1 }

theorem startFrame_eq {k : Nat} {p : FramePlan} {s : State} (h : Reaching s) :
    startFrame k p s = exposed k p (s.capture.seq + 1) (put ((startWrites k p s).foldl act s) (lit k p s)) := by
  have hfields : startFrame k p s = { (startWrites k p s).foldl act s with
      lamp := (lit k p s).lamp
      ring := s.ring.set k { storeAt s k with state := .filling, seq := s.capture.seq + 1, hold := false }
      capture := (startFrame k p s).capture, still := (startFrame k p s).still } := rfl
  rw [hfields, startFrame_still, ← filling_ring, (h.acted _).frame]
  rfl

theorem triggerStart_startFrame {k : Nat} {p : FramePlan} {s : State} (h : Reaching s) (hk : k < s.cfg.stores)
    (hp : s.capture.plan = some p) : triggerStart k s = startFrame k p s := by
  have hf : Reaching (filling k s) := h.change
  have hheader : Ready ((fillingWrites k (s.capture.seq + 1) s).foldl act s) (filling k s) :=
    ((ready_self h.regions h.working).acts _).change
  have hwrites : writeFillingHeader k (s.capture.seq + 1) (filling k s)
      = put ((fillingWrites k (s.capture.seq + 1) s).foldl act s) (filling k s) :=
    (writeFillingHeader_eq hf hk).trans (acts_put (v := filling k s) h.regions h.working { working := h.working })
  have hlamp := lampDo_ready hheader (lampTriggerStart s.part s.cfg p s.lamp)
  have hready := (hheader.acts (events (startLamp p s).2)).change (u := lit k p s)
  rw [triggerStart_eq hp, hwrites, onward_ready hheader, startFrame_eq h, startWrites, List.foldl_append]
  change onward (lampDo (lampTriggerStart s.part s.cfg p s.lamp) _) _ = _
  rw [hlamp]
  exact onward_ready hready _

theorem deferFrame_deferFrom {s : State} (h : Reaching s) : deferFrame s = deferFrom s := by
  cases ho : s.capture.deferralOpen with
  | true => simp only [deferFrame, deferFrom, ho, if_true]
  | false =>
    have hemit := emit_put (e := deferral s)
      (v := { s with capture := { s.capture with trig := .deferred, deferralOpen := true } }) h.regions h.working
      { working := h.working }
    simp only [deferFrame, deferFrom, ho, Bool.false_eq_true, if_false]
    rw [(acted_emit (e := deferral s) h.regions h.working).frame]
    exact hemit

/-- The capture unit waits for a planned frame. -/
def waiting (p : FramePlan) (s : State) : State :=
  { s with capture := { s.capture with plan := some p, trig := .waiting } }

theorem awaited_early {p : FramePlan} {s : State} (h : s.now < p.dueAt) : awaited p s = waiting p s := if_pos h

theorem awaited_found {p : FramePlan} {s : State} {k : Nat} (h : ¬ s.now < p.dueAt) (hk : selectStore (waiting p s) = some k) :
    awaited p s = startFrame k p (waiting p s) := by
  simp only [waiting] at hk ⊢
  simp only [awaited, if_neg h, hk]

theorem awaited_deferred {p : FramePlan} {s : State} (h : ¬ s.now < p.dueAt) (hk : selectStore (waiting p s) = none) :
    awaited p s = deferFrom (waiting p s) := by
  simp only [waiting] at hk ⊢
  simp only [awaited, if_neg h, hk]

theorem awaitDue_eq {p : FramePlan} {s : State} (hp : s.capture.plan = some p) :
    awaitDue s = if p.dueAt ≤ s.now then captureSelect (waiting p s) else waiting p s := by
  have hwaits : ({ s with capture := { s.capture with trig := .waiting } } : State) = waiting p s := by rw [waiting, ← hp]
  rw [awaitDue, hwaits]
  rfl

/-- The unit waits for its plan, or selects at once (R21, R23). -/
theorem awaitDue_awaited {p : FramePlan} {s : State} (h : Reaching s) (hp : s.capture.plan = some p) :
    awaitDue s = awaited p s := by
  have hw : Reaching (waiting p s) := h.change
  rw [awaitDue_eq hp]
  by_cases hd : s.now < p.dueAt
  · rw [if_neg (Nat.not_le.2 hd), awaited_early hd]
  · rw [if_pos (Nat.not_lt.1 hd)]
    match hk : selectStore (waiting p s) with
    | some k => rw [captureSelect, hk, awaited_found hd hk]; exact triggerStart_startFrame hw (selectStore_lt hk) rfl
    | none => rw [captureSelect, hk, awaited_deferred hd hk]; exact deferFrame_deferFrom hw

end Sys2Proof.Proofs

namespace Sys2Proof.Proofs

open Sys2Proof.Machine Sys2Proof.Safety Sys2Proof.Laws

/-! ## Stores in LOADING -/

/-- A state with another board memory. -/
def setMem (m : List Host.Cell) (s : State) : State := { s with mem := m }

/-- Bytes stored, and nothing else. -/
def IsStore (a : Act) : Prop := ∃ x bs, a = .store x bs

/-- Stores read nothing but memory. -/
theorem stores_setMem : ∀ {as : List Act} {u v : State}, (∀ a ∈ as, IsStore a) →
    as.foldl act (setMem u.mem v) = setMem (as.foldl act u).mem v
  | [], _, _, _ => rfl
  | a :: as, u, v, h => by
    obtain ⟨x, bs, rfl⟩ := h _ List.mem_cons_self
    exact stores_setMem (u := act u (.store x bs)) fun b hb => h b (List.mem_cons_of_mem _ hb)

/-- In LOADING, the regions of the configuration just taken lie in reach. -/
structure Preparing (s : State) : Prop where
  loading : s.part = .loading
  errors : s.errors = []
  area : s.areaBase + 0x284 ≤ 2 ^ 32
  events : s.cfg.eventBase + 48 * s.cfg.eventCount ≤ 2 ^ 32
  header : ∀ k < s.cfg.stores, storeBase s.cfg k + 64 ≤ 2 ^ 32

theorem Preparing.change {s t : State} (h : Preparing s) (hp : t.part = s.part := by rfl) (he : t.errors = s.errors := by rfl)
    (ha : t.areaBase = s.areaBase := by rfl) (hc : t.cfg = s.cfg := by rfl) : Preparing t where
  loading := hp.trans h.loading
  errors := he.trans h.errors
  area := ha ▸ h.area
  events := hc ▸ h.events
  header := hc ▸ h.header

theorem Preparing.portWrite {bs : List Byte} {a : Nat} {s : State} (h : Preparing s) (hl : a + bs.length ≤ 2 ^ 32) :
    portWrite a bs s = act s (.store a bs) :=
  portWrite_ok (by simp [portOpen, h.loading]) h.errors hl

theorem Preparing.onward {s : State} (h : Preparing s) (k : State → State) : onward s k = k s :=
  onward_of_ne (by rw [h.loading]; decide)

theorem Preparing.act {s : State} (h : Preparing s) (a : Nat) (bs : List Byte) : Preparing (act s (.store a bs)) := h.change

/-! ## Region preparation (R7) -/

/-- Lap 3 in event entries. -/
def lapWrites (cfg : Cfg) (is : List Nat) : List Act := is.map fun i => .store (cfg.eventBase + 48 * i) [3]

theorem writeLaps_eq : ∀ {is : List Nat} {s : State}, Preparing s → (∀ i ∈ is, i < s.cfg.eventCount) →
    writeLaps is s = (lapWrites s.cfg is).foldl act s
  | [], _, _, _ => rfl
  | i :: is, s, h, hi => by
    have hlt := hi i List.mem_cons_self
    have hevents := h.events
    rw [writeLaps, h.portWrite (by simp; omega), (h.act _ _).onward,
      writeLaps_eq (h.act _ _) fun j hj => hi j (List.mem_cons_of_mem _ hj)]
    rfl

/-- The first bytes of store headers. -/
def voidWrites (cfg : Cfg) (bytes : List Byte) (ks : List Nat) : List Act := ks.map fun k => .store (storeBase cfg k) bytes

theorem writeVoids_eq {bytes : List Byte} (hb : bytes.length ≤ 2) : ∀ {ks : List Nat} {s : State}, Preparing s →
    (∀ k ∈ ks, k < s.cfg.stores) → writeVoids bytes ks s = (voidWrites s.cfg bytes ks).foldl act s
  | [], _, _, _ => rfl
  | k :: ks, s, h, hk => by
    have hheader := h.header k (hk k List.mem_cons_self)
    rw [writeVoids, h.portWrite (by omega), (h.act _ _).onward,
      writeVoids_eq hb (h.act _ _) fun j hj => hk j (List.mem_cons_of_mem _ hj)]
    rfl

/-- The list engine after region preparation. -/
def preparedList (l : Loading) (s : State) : ListEngine :=
  if l.listChanged then
    { s.list with reqIndex := 0, reqLap := 0, evIndex := 0, evLap := 0, listState := .active } else s.list

/-- The writes to the lists. -/
def listWrites (l : Loading) (s : State) : List Act :=
  if l.listChanged then
    lapWrites s.cfg (List.range s.cfg.eventCount) ++ [.store (s.areaBase + 0x280) (le32 0)] else []

theorem lapWrites_stores (cfg : Cfg) (is : List Nat) : ∀ a ∈ lapWrites cfg is, IsStore a := by
  intro a ha
  obtain ⟨i, -, rfl⟩ := List.mem_map.1 ha
  exact ⟨_, _, rfl⟩

theorem listWrites_stores (l : Loading) (s : State) : ∀ a ∈ listWrites l s, IsStore a := by
  intro a ha
  rw [listWrites] at ha
  split at ha
  · obtain ha | ha := List.mem_append.1 ha
    · exact lapWrites_stores _ _ a ha
    · exact ⟨_, _, List.mem_singleton.1 ha⟩
  · exact absurd ha List.not_mem_nil

/-- The state with its lists prepared. -/
def listed (l : Loading) (s : State) : State := { s with list := preparedList l s }

theorem prepareLists_eq {s : State} {l : Loading} (h : Preparing s) : (if l.listChanged then prepareLists s else s) =
    setMem ((listWrites l s).foldl act s).mem (listed l s) := by
  cases hc : l.listChanged with
  | false => simp only [listWrites, listed, preparedList, hc, Bool.false_eq_true, if_false]; rfl
  | true =>
    have hlaps : (lapWrites s.cfg (List.range s.cfg.eventCount)).foldl act s = setMem
        ((lapWrites s.cfg (List.range s.cfg.eventCount)).foldl act s).mem s :=
      stores_setMem (u := s) (v := s) (lapWrites_stores _ _)
    have hword : (le32 0).length = 4 := rfl
    have harea := h.area
    simp only [listWrites, listed, preparedList, hc, if_true]
    rw [prepareLists, writeLaps_eq h (fun i hi => List.mem_range.1 hi), hlaps, Preparing.onward (h.change),
      Preparing.portWrite (h.change) (by rw [hword]; exact Nat.le_trans (by simp [setMem]) harea), Preparing.onward (h.change),
      List.foldl_append]
    rfl

/-- A store that keeps its frame and its hold. -/
def keeps (l : Loading) (e : RingEntry) : Bool := !l.ringChanged && e.hold && e.state == .complete

/-- The ring table after region preparation. -/
def preparedRing (l : Loading) (s : State) : List RingEntry :=
  s.ring.map fun e => if keeps l e then e else { e with state := .void, hold := false }

/-- The writes to the ring. -/
def ringWrites (l : Loading) (s : State) : List Act :=
  voidWrites s.cfg (if l.ringChanged then [0, 0] else [0]) ((List.range s.cfg.stores).filter fun k => !keeps l (storeAt s k))

theorem ringWrites_stores (l : Loading) (s : State) : ∀ a ∈ ringWrites l s, IsStore a := by
  intro a ha
  obtain ⟨i, -, rfl⟩ := List.mem_map.1 ha
  exact ⟨_, _, rfl⟩

theorem prepareRing_eq {s : State} {l : Loading} (h : Preparing s) : prepareRing l.ringChanged s =
    (ringWrites l s).foldl act { s with ring := preparedRing l s } := by
  have hkeeps : (fun e : RingEntry => !l.ringChanged && e.kept) = keeps l :=
    funext fun e => (Bool.and_assoc _ _ _).symm
  have hlen : (if l.ringChanged then [0, 0] else [0] : List Byte).length ≤ 2 := by split <;> decide
  rw [prepareRing]
  simp only [congrFun hkeeps]
  exact writeVoids_eq hlen h.change fun k hk => List.mem_range.1 (List.mem_of_mem_filter hk)

end Sys2Proof.Proofs

namespace Sys2Proof.Proofs

open Sys2Proof.Machine Sys2Proof.Safety Sys2Proof.Laws

/-! ## The writes of region preparation -/

/-- The state with its lists and its ring table prepared. -/
def prepared (l : Loading) (s : State) : State := { s with list := preparedList l s, ring := preparedRing l s }

/-- The lists, the ring, then the status record (log entry 48). -/
def prepWrites (l : Loading) (s : State) : List Act :=
  listWrites l s ++ ringWrites l s ++ [.store (s.areaBase + 0x100) (statusRecord .loading (prepared l s))]

theorem prepWrites_stores (l : Loading) (s : State) : ∀ a ∈ prepWrites l s, IsStore a := by
  intro a ha
  rw [prepWrites, List.mem_append, List.mem_append, List.mem_singleton] at ha
  obtain (ha | ha) | rfl := ha
  · exact listWrites_stores l s a ha
  · exact ringWrites_stores l s a ha
  · exact ⟨_, _, rfl⟩

/-- The status record of region preparation is that of LOADING (log entry 17). -/
theorem writeStatus_eq {s : State} (h : Preparing s) : writeStatus s.areaBase s.part s =
    act s (.store (s.areaBase + 0x100) (statusRecord .loading s)) := by
  have harea := h.area
  rw [writeStatus, h.portWrite (by rw [statusRecord_length]; omega), h.loading]

theorem statusRecord_setMem (part : PartState) (m : List Host.Cell) (s : State) :
    statusRecord part (setMem m s) = statusRecord part s := by
  simp only [statusRecord, statusPart, statusCapture, heldStores, storesInUse, storeAt, setMem]

theorem prepared_areaBase (l : Loading) (m : List Host.Cell) (s : State) :
    (setMem m (prepared l s)).areaBase = s.areaBase := rfl

theorem act_setMem (a : Nat) (bs : List Byte) (u v : State) :
    act (setMem u.mem v) (.store a bs) = setMem (act u (.store a bs)).mem v := by
  simp only [act, setMem]

theorem regionPreparationOp_eq {l : Loading} {s : State} (h : Preparing s) : regionPreparationOp l s =
    enterRunning (setMem ((prepWrites l s).foldl act s).mem (prepared l s)) := by
  have hlists : Preparing (setMem ((listWrites l s).foldl act s).mem (listed l s)) := h.change
  have hring : prepareRing l.ringChanged (setMem ((listWrites l s).foldl act s).mem (listed l s))
      = setMem ((listWrites l s ++ ringWrites l s).foldl act s).mem (prepared l s) := by
    rw [prepareRing_eq hlists, List.foldl_append]
    exact stores_setMem (u := (listWrites l s).foldl act s) (v := prepared l s) (ringWrites_stores l s)
  have hboth : Preparing (setMem ((listWrites l s ++ ringWrites l s).foldl act s).mem (prepared l s)) := h.change
  rw [regionPreparationOp, prepareLists_eq h, hlists.onward, hring, hboth.onward, writeStatus_eq hboth,
    (hboth.act _ _).onward, statusRecord_setMem, prepared_areaBase, act_setMem, prepWrites]
  simp only [List.foldl_append, List.foldl_cons, List.foldl_nil]

/-! ## The entry to RUNNING (R7, R14, R21, R43, R101) -/

/-- The part in RUNNING, before anything has been written. -/
def entered (l : Loading) (m : Nat) (s : State) : State := { s with
  now := max s.now m, part := .running, loading := none, ring := preparedRing l s
  chainage := s.chainage.setNotRunning false
  list := { preparedList l s with
    pollTimer := if s.cfg.pollMs = 0 then none else some (max s.now m + s.cfg.pollMs * 1000) }
  capture := { s.capture with selPtr := none }
  link := { s.link with silence := some (max s.now m + s.cfg.silenceMs * 1000) }
  playout := { s.playout with
    timer := some (max s.now m + outputPeriod s.cfg), shown := none, consec := 0, stallOpen := false
    lastShown := s.capture.seq } }

/-- No entry of the poll table gives a temperature, and that has not been reported (R81). -/
def noEntry (s : State) : Bool := !s.lamp.tempPresent && !s.lamp.stale

/-- The lamp unit with the first plan (R87). -/
def entryWanted (s : State) : Lamp :=
  { s.lamp with wantedL := s.exposure.planL, dutyT := 1, dutyCap := 1, stale := s.lamp.stale || noEntry s }

/-- The lamp update at entry to RUNNING. -/
def entryLamp (s : State) : Lamp × List Event :=
  lampUpdate .running s.cfg.stillLevel { entryWanted s with ceiling := thermalCeiling s.cfg (entryWanted s) }

/-- TEMP_STALE, then the event of the lamp update (log entry 9). -/
def entryEvents (s : State) : List Act :=
  (if noEntry s then [.event (Event.tempStale .noEntry s.lamp.tempAge)] else []) ++ events (entryLamp s).2

theorem lampEnterRunning_eq (s : State) : (lampEnterRunning s.cfg s.exposure.planL s.lamp).1 = (entryLamp s).1
    ∧ events (lampEnterRunning s.cfg s.exposure.planL s.lamp).2 = entryEvents s := by
  rw [entryEvents, entryLamp, entryWanted]
  cases hn : noEntry s <;> rw [noEntry] at hn
  · simp only [lampEnterRunning, hn, Bool.or_false, Bool.false_eq_true, if_false, List.nil_append, and_self]
  · simp only [lampEnterRunning, hn, Bool.or_true, if_true, true_and]
    rfl

/-- The lamps lit and the gain handed. -/
def handed (s t : State) : State := { t with
  lamp := (entryLamp s).1, bus := { s.bus with pendingGain := some s.exposure.planG }
  exposure := { s.exposure with gws := .queued, handedGain := some s.exposure.planG } }

/-- The still unit after the plan has been fixed (R161). -/
def claimed (x : Still) : Still := if boostWaiting x then claimHead x else x

theorem nextFrame_eq (s : State) : nextFrame s =
    awaited (nextPlan (boostWaiting s.still) s) { s with still := claimed s.still } := by
  have hx : s.still = { s.still with orders := s.still.orders } := rfl
  rw [nextFrame, claimed, claimHead]
  match hb : boostWaiting s.still, ho : s.still.orders with
  | true, o :: os => rfl
  | true, [] => simp [← ho]
  | false, os => simp [← ho]

section Entry

variable {l : Loading} {m : Nat} {s : State}

theorem entered_reaching
    (h : RegionsOk { s with list := { s.list with evIndex := if l.listChanged then 0 else s.list.evIndex } }) :
    Reaching (entered l m s) := by
  refine ⟨rfl, ?_⟩
  have hi : (entered l m s).list.evIndex = if l.listChanged then 0 else s.list.evIndex := by
    simp only [entered, preparedList]
    split <;> rfl
  obtain ⟨hm, he, ha, hb, hl, hv, hi', hs, hp⟩ := h
  rw [← hi] at hi'
  exact ⟨hm, he, ha, hb, hl, hv, hi', hs, hp⟩

theorem preparing_of (hp : s.part = .loading)
    (h : RegionsOk { s with list := { s.list with evIndex := if l.listChanged then 0 else s.list.evIndex } }) :
    Preparing (advance m s) :=
  have hheader := fun k => storeHeader_le (k := k) h
  have ⟨_, he, ha, _, _, hv, _⟩ := h
  ⟨hp, he, ha, hv, hheader⟩

/-- The first plan, fixed at the entry (R21, R22). -/
def entryPlan (l : Loading) (m : Nat) (s : State) : FramePlan := nextPlan (boostWaiting s.still) (entered l m s)

theorem enterRunningPlan_eq (mem : List Host.Cell) : enterRunningPlan (setMem mem (prepared l (advance m s))) =
    planned (entryPlan l m s) (claimed s.still) (setMem mem (entered l m s)) := rfl

/-- Everything written at the end of region preparation. -/
def entryWrites (l : Loading) (s : State) : List Act := prepWrites l s ++ entryEvents s

/-- The part in RUNNING with its lamps lit and the gain handed. -/
def lamplit (l : Loading) (m : Nat) (s : State) : State := handed s ((entryWrites l s).foldl act (entered l m s))

theorem prepWrites_foldl : (prepWrites l s).foldl act (entered l m s) =
    setMem ((prepWrites l s).foldl act s).mem (entered l m s) :=
  stores_setMem (u := s) (v := entered l m s) (prepWrites_stores l s)

/-- The lamp unit and then the gain path, before the head bus looks for work (log entry 9). -/
theorem entry_lamplit (h : Reaching (entered l m s)) :
    handGainAtEntry (lampDo (lampEnterRunning s.cfg s.exposure.planL s.lamp)
      (planned (entryPlan l m s) (claimed s.still) (setMem ((prepWrites l s).foldl act s).mem (entered l m s))))
      = planned (entryPlan l m s) (claimed s.still) (lamplit l m s) := by
  have hP : Reaching (setMem ((prepWrites l s).foldl act s).mem (entered l m s)) := prepWrites_foldl ▸ h.acts _
  obtain ⟨hlamp, hevents⟩ := lampEnterRunning_eq s
  have hdo := lampDo_ready ((ready_self hP.regions hP.working).change (u := planned (entryPlan l m s) (claimed s.still)
    (setMem ((prepWrites l s).foldl act s).mem (entered l m s)))) (lampEnterRunning s.cfg s.exposure.planL s.lamp)
  rw [hlamp, hevents] at hdo
  rw [lamplit, entryWrites, List.foldl_append, prepWrites_foldl, (hP.acted _).frame]
  exact congrArg handGainAtEntry hdo

theorem lamplit_reaching (h : Reaching (entered l m s)) : Reaching (lamplit l m s) :=
  (h.acts _).change

theorem lamplit_fields (h : Reaching (entered l m s)) : lamplit l m s =
    put ((entryWrites l s).foldl act (entered l m s)) (handed s (entered l m s)) := by
  rw [lamplit, (h.acted _).frame]
  rfl

theorem nextPlan_congr {b : Bool} {u v : State} (hc : u.cfg = v.cfg) (hx : u.capture = v.capture) (hn : u.now = v.now)
    (hT : u.exposure.planT = v.exposure.planT) (hL : u.exposure.planL = v.exposure.planL) : nextPlan b u = nextPlan b v := by
  simp only [nextPlan, hc, hx, hn, hT, hL]

/-- The plan and the claim are those that the state before the head bus gives as well as the one after it. -/
theorem nextFrame_served (h : Reaching (entered l m s)) : nextFrame (served (lamplit l m s)) =
    awaited (entryPlan l m s) (planned (entryPlan l m s) (claimed s.still) (served (lamplit l m s))) := by
  have hs := served_serves (lamplit_reaching h)
  have hfields := lamplit_fields h
  have hstill : (served (lamplit l m s)).still = s.still := by rw [hs.frame, hfields]; rfl
  have hplan : nextPlan (boostWaiting s.still) (served (lamplit l m s)) = entryPlan l m s :=
    nextPlan_congr (by rw [hs.frame, hfields]; rfl) (by rw [hs.frame, hfields]; rfl) (by rw [hs.frame, hfields]; rfl)
      (hs.planT.trans (by rw [hfields]; rfl)) (hs.planL.trans (by rw [hfields]; rfl))
  rw [nextFrame_eq, hstill, hplan]
  rfl

theorem enterRunning_eq_nextFrame (h : Reaching (entered l m s)) (hb : BusReachable s) :
    enterRunning (setMem ((prepWrites l s).foldl act s).mem (prepared l (advance m s)))
      = nextFrame (served (lamplit l m s)) := by
  have hlit := lamplit_reaching h
  have hfirst : Reaching (planned (entryPlan l m s) (claimed s.still) (lamplit l m s)) := hlit.change
  have hserved : Reaching (planned (entryPlan l m s) (claimed s.still) (served (lamplit l m s))) :=
    ((served_serves hlit).reaching hlit).change
  have hlamp := entry_lamplit h
  have hpart : (lampDo (lampEnterRunning s.cfg s.exposure.planL s.lamp) (planned (entryPlan l m s) (claimed s.still)
      (setMem ((prepWrites l s).foldl act s).mem (entered l m s)))).part ≠ .faulted :=
    fun hf => by
      have hrunning := (congrArg State.part hlamp).trans hfirst.running
      exact absurd (hf.symm.trans hrunning) (by decide)
  rw [enterRunning_eq, enterRunningPlan_eq]
  refine (onward_of_ne hpart).trans ?_
  rw [hlamp, busServe_served hfirst.regions hb, served_planned hlit, onward_reaching hserved, awaitDue_awaited hserved rfl,
    nextFrame_served h]

end Entry

/-- The moment is in no byte written. -/
theorem prepWrites_advance (l : Loading) (m : Nat) (s : State) : prepWrites l (advance m s) = prepWrites l s := by
  have hrecord : statusRecord .loading (prepared l (advance m s)) = statusRecord .loading (prepared l s) := by
    simp only [statusRecord, statusPart, statusCapture, heldStores, storesInUse, storeAt, prepared, preparedList, preparedRing,
      advance]
  rw [prepWrites, hrecord]
  rfl

theorem exec_regionPreparation {m : Nat} {s : State} {l : Loading} (hl : s.loading = some l) (hq : l.preparing = true) :
    exec (.regionPreparation m) s = .next (regionPreparationOp l (advance m s)) := by
  change execRegionPreparation m s = _
  simp [execRegionPreparation, hl, hq]

/-- Settles O8: the stores of the preparation, then the entry to RUNNING, block by block. -/
theorem regionPreparationEntersRunning : Obligations.RegionPreparationEntersRunning := by
  intro m s l hp hl hq hb hr now lists kept ring laps voids record absent lamp lit writes entered
  have hreach : Reaching (Proofs.entered l m s) := entered_reaching hr
  refine ⟨rfl, ?_⟩
  have hstores : (prepWrites l s).foldl act (advance m s) = setMem ((prepWrites l s).foldl act s).mem (advance m s) :=
    stores_setMem (u := s) (v := advance m s) (prepWrites_stores l s)
  have hmem : ((prepWrites l (advance m s)).foldl act (advance m s)).mem = ((prepWrites l s).foldl act s).mem := by
    rw [prepWrites_advance, hstores]
    rfl
  have hwrites : entryWrites l s = writes := (List.append_assoc _ _ _).symm
  rw [exec_regionPreparation hl hq, regionPreparationOp_eq (preparing_of hp hr), hmem, enterRunning_eq_nextFrame hreach hb,
    lamplit, hwrites]
  rfl

end Sys2Proof.Proofs

namespace Sys2Proof.Proofs

open Sys2Proof.Machine Sys2Proof.Safety Sys2Proof.Laws

/-! ## Acts along a chain of operations

An operation of a block does acts and changes its own record. `Acting P s t` says that `t` comes from `s` in this way by
acts that satisfy `P`; it composes, and what acts leave unchanged is read off it once. -/

/-- `t` has the memory, the attention bits and the list engine of `s` after acts that satisfy `P`, and an event finds in
`t` what it finds in `s`. -/
structure Acting (P : Act → Prop) (s t : State) : Prop extends Ready s t where
  acts : ∃ as : List Act, (∀ a ∈ as, P a) ∧ t = put (as.foldl act s) t
  workBase : t.workBase = s.workBase

/-- The act writes in these ranges alone. -/
def Within (rs : List (Nat × Nat)) (s : State) (a : Act) : Prop :=
  ∀ x, (∀ r ∈ rs, ¬ InRange r x) → ∀ r ∈ actRange s a, ¬ InRange r x

/-- Any act. -/
def anyAct (_ : Act) : Prop := True

theorem actRange_cfg {s t : State} (h : t.cfg = s.cfg) (a : Act) : actRange t a = actRange s a := by
  cases a with
  | event => simp only [actRange, eventList, h]
  | answer | store | attention => rfl

theorem within_cfg {s t : State} (h : t.cfg = s.cfg) (rs : List (Nat × Nat)) : Within rs t = Within rs s := by
  funext a
  simp only [Within, actRange_cfg h]

theorem within_mono {rs rs' : List (Nat × Nat)} {s : State} {a : Act} (h : Within rs s a) (hr : ∀ r ∈ rs, r ∈ rs') :
    Within rs' s a := fun x hx => h x fun r hm => hx r (hr r hm)

theorem within_event {rs : List (Nat × Nat)} {s : State} (e : Event) (h : eventList s ∈ rs) : Within rs s (.event e) :=
  fun _ hx _ hr => List.mem_singleton.1 hr ▸ hx _ h

theorem within_events {rs : List (Nat × Nat)} {s : State} {es : List Event} (h : eventList s ∈ rs) :
    ∀ a ∈ events es, Within rs s a := by
  intro a ha
  obtain ⟨e, -, rfl⟩ := List.mem_map.1 ha
  exact within_event e h

/-- A store inside one of the ranges. -/
theorem within_store {rs : List (Nat × Nat)} {s : State} {r : Nat × Nat} {a : Nat} {bs : List Byte} (h : r ∈ rs)
    (hl : r.1 ≤ a) (hu : a + bs.length ≤ r.1 + r.2) : Within rs s (.store a bs) := by
  intro x hx q hq
  obtain rfl := List.mem_singleton.1 hq
  have hx := hx r h
  simp only [InRange] at hx ⊢
  omega

theorem within_answer {rs : List (Nat × Nat)} {s : State} {slot : Nat} (code w0 w1 : Nat) (h : slotHead slot ∈ rs) :
    Within rs s (.answer slot code w0 w1) := fun _ hx _ hr => List.mem_singleton.1 hr ▸ hx _ h

section

variable {P Q : Act → Prop} {s t u v w : State}

/-- Acts, and after them a change that an event does not see. -/
theorem Ready.acting (h : Ready s v) {as : List Act} (hP : ∀ a ∈ as, P a) (hb : v.workBase = s.workBase := by rfl) :
    Acting P s (put (as.foldl act s) v) where
  toReady := h.change
  acts := ⟨as, hP, rfl⟩
  workBase := hb

theorem Acting.refl (hr : RegionsOk s) (hw : Working s) : Acting P s s := (ready_self hr hw).acting (as := []) nofun

theorem Acting.mono (h : Acting P s t) (hQ : ∀ a, P a → Q a) : Acting Q s t where
  toReady := h.toReady
  acts := h.acts.imp fun _ ha => ⟨fun a hm => hQ a (ha.1 a hm), ha.2⟩
  workBase := h.workBase

theorem Acting.target_working (h : Acting P s t) : Working t := h.alike.working

theorem Acting.regionsOk (h : Acting P s t) : RegionsOk t := by
  obtain ⟨as, -, ht⟩ := h.acts
  have hu := (acted_acts (as := as) h.regions h.working).regionsOk h.regions
  have hf := (acted_acts (as := as) h.regions h.working).frame
  obtain ⟨hm, -, ha, hb, hl, hv, hi, hs, hp⟩ := hu
  rw [hf] at ha hb hl hv hi hs hp
  simp only [RegionsOk, h.alike.errors, h.alike.areaBase, h.alike.cfg, h.workBase]
  rw [ht]
  exact ⟨hm, h.regions.2.1, ha, hb, hl, hv, hi, hs, hp⟩

theorem Acting.trans (h : Acting P s t) (h' : Acting P t u) : Acting P s u := by
  obtain ⟨as, hP, ht⟩ := h.acts
  obtain ⟨bs, hQ, hu⟩ := h'.acts
  have ha := acted_acts (as := as) h.regions h.working
  have hacts : bs.foldl act t = put (bs.foldl act (as.foldl act s)) t := by
    conv_lhs => rw [ht]
    exact acts_put (ha.regionsOk h.regions) (ha.working h.working) (ha.alike h.alike)
  refine ⟨⟨h.regions, h.working, ?_⟩, ⟨as ++ bs, ?_, ?_⟩, h'.workBase.trans h.workBase⟩
  · obtain ⟨he, hb, hc, hf, hx, -⟩ := h.alike
    obtain ⟨he', hb', hc', hf', hx', hw⟩ := h'.alike
    exact ⟨he'.trans he, hb'.trans hb, hc'.trans hc, hf'.trans hf, hx'.trans hx, hw⟩
  · exact fun a hm => (List.mem_append.1 hm).elim (hP a) (hQ a)
  · rw [hu, hacts, List.foldl_append]
    rfl

/-- A change of the rest of the state does no act. -/
theorem Acting.change (h : Acting P s t) (hw : Working u := by assumption) (hm : u.mem = t.mem := by rfl)
    (ha : u.attention = t.attention := by rfl)
    (hl : u.list = t.list := by rfl) (he : u.errors = t.errors := by rfl) (hb : u.areaBase = t.areaBase := by rfl)
    (hwb : u.workBase = t.workBase := by rfl) (hc : u.cfg = t.cfg := by rfl)
    (hf : u.playout.frames = t.playout.frames := by rfl) (hx : u.chainage.x = t.chainage.x := by rfl) : Acting P s u :=
  h.trans { regions := h.regionsOk, working := h.target_working, alike := ⟨he, hb, hc, hf, hx, hw⟩, workBase := hwb
            acts := ⟨[], nofun, by rw [List.foldl_nil, put, ← hm, ← ha, ← hl]⟩ }

theorem Acting.sameOutside {rs : List (Nat × Nat)} (h : Acting (Within rs s) s t) : SameOutside rs s t := by
  obtain ⟨as, hP, ht⟩ := h.acts
  intro x hx
  rw [ht]
  refine acts_sameOutside h.regions h.working x fun r hr => ?_
  obtain ⟨a, ha, hr⟩ := List.mem_flatMap.1 hr
  exact hP a ha x hx r hr

theorem Acting.list_eq (h : Acting P s t) : SameListButEvent s t := by
  obtain ⟨as, -, ht⟩ := h.acts
  rw [ht]
  exact (acted_acts h.regions h.working).list_eq

/-- Acts clear no bit of the missed-event mask. -/
theorem acts_missed {i : Nat} : ∀ {as : List Act} {s : State}, RegionsOk s → Working s →
    s.list.missed.getLsbD i = true → (as.foldl act s).list.missed.getLsbD i = true
  | [], _, _, _, h => h
  | a :: as, s, hr, hw, h => by
    have hd := acted_act (a := a) hr hw
    refine acts_missed (as := as) (s := act s a) (hd.regionsOk hr) (hd.working hw) ?_
    cases a with
    | event e =>
      obtain he | he := emit_cases (e := e) hr hw <;> rw [act, he]
      · obtain ⟨j, l, hc, -⟩ := advanceEventCursor_list { s with mem := eventMem e s }
        rw [eventWritten, hc]
        exact h
      · rw [missEvent, BitVec.getLsbD_or, h, Bool.true_or]
    | answer | store | attention => exact h

/-- A report stays. -/
theorem Acting.reported {k : Nat} (h : Acting P s t) (hr : Reported k s) : Reported k t := by
  obtain ⟨as, -, ht⟩ := h.acts
  rw [ht]
  exact hr.imp (acts_attention h.regions h.working) (acts_missed h.regions h.working)

/-- Bytes outside the ranges stay. -/
theorem readList_sameOutside {rs : List (Nat × Nat)} {a n : Nat} (h : SameOutside rs s t)
    (ha : ∀ i < n, ∀ r ∈ rs, ¬ InRange r (a + i)) : Memory.readList t.mem a n = Memory.readList s.mem a n :=
  readList_congr fun i hi => h _ (ha i hi)

end

theorem Ready.act {w v : State} (h : Ready w v) (a : Act) : Ready (Safety.act w a) v := h.acts [a]

/-- A write of the part, where it works and the regions are in reach. -/
theorem portWrite_ready {w v : State} (h : Ready w v) {a : Nat} {bs : List Byte} (hl : a + bs.length ≤ 2 ^ 32) :
    portWrite a bs (put w v) = put (act w (.store a bs)) v :=
  portWrite_ok (portOpen_of_working (s := put w v) h.alike.working) (h.alike.errors.trans h.regions.2.1) hl

theorem portRead_ready {w v : State} (h : Ready w v) {a n : Nat} (hl : a + n ≤ 2 ^ 32) :
    portRead a n (put w v) = some (Memory.readList w.mem a n) :=
  portRead_ok (portOpen_of_working (s := put w v) h.alike.working) (h.alike.errors.trans h.regions.2.1) hl

/-- A write of the part, and what follows it. -/
theorem onward_write {w v : State} (h : Ready w v) {a : Nat} {bs : List Byte} (hl : a + bs.length ≤ 2 ^ 32)
    (k : State → State) : onward (portWrite a bs (put w v)) k = k (put (act w (.store a bs)) v) := by
  rw [portWrite_ready h hl]
  exact onward_ready (h.acts [.store a bs]) k

end Sys2Proof.Proofs

namespace Sys2Proof.Proofs

open Sys2Proof.Machine Sys2Proof.Safety Sys2Proof.Laws

/-! ## TRIGGER_END (R26, R33, R89, R90) -/

/-- The update at the end of a boost (R89). -/
def boostEnded (s : State) : Lamp × List Event :=
  lampUpdate s.part s.cfg.stillLevel { s.lamp with strobe := false, boost := false }

theorem lampTriggerEnd_boost {s : State} (h : s.lamp.boost = true) :
    lampTriggerEnd s.part s.cfg s.lamp = boostEnded s := if_pos h

theorem lampTriggerEnd_steady {s : State} (h : s.lamp.boost = false) :
    lampTriggerEnd s.part s.cfg s.lamp = ({ s.lamp with strobe := false }, []) := if_neg (by simp [h])

/-- The end of an exposure window leaves the duty pair. -/
theorem lampTriggerEnd_frame (s : State) :
    let l := (lampTriggerEnd s.part s.cfg s.lamp).1
    l.strobe = false ∧ l.boost = false ∧ l.dutyT = s.lamp.dutyT ∧ l.dutyCap = s.lamp.dutyCap := by
  cases h : s.lamp.boost with
  | true => rw [lampTriggerEnd_boost h]; exact ⟨rfl, rfl, rfl, rfl⟩
  | false => rw [lampTriggerEnd_steady h]; exact ⟨rfl, h, rfl, rfl⟩

/-- READOUT, with the frame sampled. -/
def readOut (f : Frame) (s : State) : State :=
  { s with
    capture := { s.capture with trig := .readout, frame := some (sampleFrame s f) }
    lamp := (lampTriggerEnd s.part s.cfg s.lamp).1 }

theorem triggerEndOp_ready {w v : State} {f : Frame} (h : Ready w v) (hf : v.capture.frame = some f) :
    triggerEndOp (put w v) = put ((events (lampTriggerEnd v.part v.cfg v.lamp).2).foldl act w) (readOut f v) := by
  have hop : triggerEndOp (put w v) = lampDo (lampTriggerEnd v.part v.cfg v.lamp)
      (put w { v with capture := { v.capture with trig := .readout, frame := some (sampleFrame v f) } }) := by
    have hf' : (put w v).capture.frame = some f := hf
    rw [triggerEndOp, hf']
    rfl
  rw [hop]
  exact lampDo_ready h.change _

/-- While no strobe window is open no STROBE output is driven (R77). -/
theorem lampPin_closed {s : State} {i : Nat} {c : Channel} (h : s.lamp.strobe = false)
    (hc : s.lamp.channels[i]? = some c) (hm : c.mode = .strobe) : lampPin s i = none := by
  simp [lampPin, hc, hm, h]

/-- Settles O35: the lamp unit's end of the window, and the frame with its samples. -/
theorem triggerEndSamples : Obligations.TriggerEndSamples := by
  intro p f start cap s htrig hplan hframe hprev hw hr
  have hready : Ready s (advance (start + p.t) s) := (ready_self hr hw).change
  obtain ⟨hstrobe, hboost, hT, hCap⟩ := lampTriggerEnd_frame s
  have hact : Acting (Within [eventList s] s) s (put ((events (lampTriggerEnd s.part s.cfg s.lamp).2).foldl act s)
      (readOut f (advance (start + p.t) s))) :=
    (hready.change (u := readOut f (advance (start + p.t) s))).acting (within_events (List.mem_singleton_self _))
  have hexec : exec .triggerEnd s = .next (put ((events (lampTriggerEnd s.part s.cfg s.lamp).2).foldl act s)
      (readOut f (advance (start + p.t) s))) := by
    have hmoment : triggerEndMoment s p = start + p.t := by rw [triggerEndMoment, hprev]
    change execTriggerEnd s = _
    rw [execTriggerEnd, hplan]
    simp only [htrig, if_true, hmoment]
    exact congrArg Host.Outcome.next (triggerEndOp_ready hready hframe)
  refine ⟨_, sampleFrame s f, hexec, rfl, rfl, fun hb => if_pos hb, hstrobe, hboost, rfl,
    fun i c hc hm => lampPin_closed hstrobe hc hm, fun hb => ?_, fun hb => ?_, hT, hCap, hact.sameOutside, hact.list_eq, rfl⟩
  · simp only [readOut, advance_part, advance_cfg, advance_lamp, lampTriggerEnd_steady hb]
    exact ⟨rfl, rfl⟩
  · simp only [readOut, advance_part, advance_cfg, advance_lamp, lampTriggerEnd_boost hb]
    exact ⟨rfl, rfl, rfl, rfl⟩

end Sys2Proof.Proofs

namespace Sys2Proof.Proofs

open Sys2Proof.Machine Sys2Proof.Safety Sys2Proof.Laws

/-! ## CAPTURE_DUE (R23 to R25) -/

/-! ### The selection of a store -/

theorem find?_map_range {n k : Nat} {g : Nat → Nat} {q : Nat → Bool} : ((List.range n).map g).find? q = some k ↔
    ∃ i < n, k = g i ∧ q k = true ∧ ∀ j < i, ¬ q (g j) = true := by
  simp only [List.find?_map, Option.map_eq_some_iff, List.find?_range_eq_some, List.mem_range, Function.comp,
    Bool.not_eq_true', Bool.not_eq_true]
  constructor
  · rintro ⟨i, ⟨hq, hi, hj⟩, rfl⟩
    exact ⟨i, hi, rfl, hq, hj⟩
  · rintro ⟨i, hi, rfl, hq, hj⟩
    exact ⟨i, ⟨hq, hi, hj⟩, rfl⟩

/-- A store is not held and not pinned (R23). -/
theorem selectable_iff (e : RingEntry) :
    e.selectable = true ↔ e.hold = false ∧ e.playPin = false ∧ e.stillPin = false := by
  simp [RingEntry.selectable, and_assoc]

theorem selectStore_some {s : State} {k : Nat} : selectStore s = some k ↔
    ∃ i < s.cfg.stores, k = ((s.capture.selPtr.elim 0 (· + 1)) + i) % s.cfg.stores ∧ (storeAt s k).selectable = true
      ∧ ∀ j < i, ¬ (storeAt s ((s.capture.selPtr.elim 0 (· + 1) + j) % s.cfg.stores)).selectable = true := by
  cases hp : s.capture.selPtr <;> simp only [selectStore, selectionOrder, hp] <;> exact find?_map_range

/-- Every store comes in the ring order from any start. -/
theorem ring_order_surjective {n k : Nat} (hk : k < n) (start : Nat) : ∃ i < n, (start + i) % n = k := by
  have hn : 0 < n := by omega
  have hlt := Nat.mod_lt start hn
  refine ⟨(k + (n - start % n)) % n, Nat.mod_lt _ hn, ?_⟩
  rw [Nat.add_mod, Nat.mod_mod, ← Nat.add_mod_mod, ← Nat.add_mod, Nat.add_mod, Nat.mod_mod, Nat.add_mod_mod,
    show start % n + (k + (n - start % n)) = k + n by omega, Nat.add_mod_right, Nat.mod_eq_of_lt hk]

theorem selectStore_none {s : State} : selectStore s = none ↔ ∀ k < s.cfg.stores, ¬ (storeAt s k).selectable = true := by
  constructor
  · intro h k hk hf
    obtain ⟨i, hi, he⟩ := ring_order_surjective hk (s.capture.selPtr.elim 0 (· + 1))
    refine List.find?_eq_none.1 h k (List.mem_map.2 ⟨i, List.mem_range.2 hi, ?_⟩) hf
    cases hp : s.capture.selPtr <;> rw [hp] at he <;> exact he
  · intro h
    cases hk : selectStore s with
    | none => rfl
    | some k => exact absurd (List.find?_some hk) (h k (selectStore_lt hk))

/-- The pins of the ring table (R24). -/
theorem pinIndex_none {s : State} {pin : RingEntry → Bool} (h : ∀ k < s.cfg.stores, pin (storeAt s k) = false) :
    pinIndex s pin = 0xFF := by
  rw [pinIndex, storesInUse, List.find?_range_eq_none.2 fun k hk => by rw [h k hk]; rfl]
  rfl

theorem pinIndex_some {s : State} {pin : RingEntry → Bool} {k : Nat} (hk : k < s.cfg.stores)
    (h : pin (storeAt s k) = true) (hj : ∀ j < k, pin (storeAt s j) = false) : pinIndex s pin = k := by
  rw [pinIndex, storesInUse, List.find?_range_eq_some.2 ⟨h, List.mem_range.2 hk, fun j hj' => by rw [hj j hj']; rfl⟩]
  rfl

/-- A boost frame waits for an unclaimed order at the head of the queue, while no copy is under way (R161). -/
theorem boostWaiting_iff (x : Still) : boostWaiting x = true ↔ x.copy = none ∧ ∃ o ∈ x.orders.head?, o.claimed = false := by
  cases ho : x.orders <;> simp [boostWaiting, ho]

/-! ### The trigger start, in every part state that writes -/

theorem writeFillingHeader_ready {w v : State} (h : Ready w v) {k : Nat} (hk : storeBase v.cfg k + 64 ≤ 2 ^ 32) (seq : Word) :
    writeFillingHeader k seq (put w v) = put ((fillingWrites k seq v).foldl act w) v := by
  have hword (n : Nat) : (le32 n).length = 4 := rfl
  have hcfg (u : State) : (put u v).cfg = v.cfg := rfl
  rw [writeFillingHeader, hcfg, onward_write h (by simp; omega), hcfg, onward_write (h.act _) (by rw [hword]; omega), hcfg]
  exact portWrite_ready ((h.act _).act _) (by rw [hword]; omega)

theorem triggerStart_ready {w v : State} {k : Nat} {p : FramePlan} (h : Ready w v) (hk : storeBase v.cfg k + 64 ≤ 2 ^ 32)
    (hp : v.capture.plan = some p) : triggerStart k (put w v)
      = put ((startWrites k p v).foldl act w) (exposed k p (v.capture.seq + 1) (lit k p v)) := by
  have hfill : Ready w (filling k v) := h.change
  have hheader : Ready ((fillingWrites k (v.capture.seq + 1) v).foldl act w) (filling k v) := hfill.acts _
  have hlit : Ready ((events (startLamp p v).2).foldl act ((fillingWrites k (v.capture.seq + 1) v).foldl act w)) (lit k p v) :=
    (hheader.acts _).change
  have hwrite : writeFillingHeader k (v.capture.seq + 1) (filling k (put w v))
      = put ((fillingWrites k (v.capture.seq + 1) v).foldl act w) (filling k v) := writeFillingHeader_ready hfill hk _
  have hlamp := lampDo_ready hheader (lampTriggerStart v.part v.cfg p v.lamp)
  rw [triggerStart_eq (s := put w v) hp]
  change onward (writeFillingHeader k (v.capture.seq + 1) (filling k (put w v))) _ = _
  rw [hwrite, onward_ready hheader, startWrites, List.foldl_append]
  change onward (lampDo (lampTriggerStart v.part v.cfg p v.lamp) _) _ = _
  rw [hlamp]
  exact onward_ready hlit _

/-- The state after a frame has been deferred, but for its event (R24). -/
def deferring (s : State) : State := { s with capture := { s.capture with trig := .deferred, deferralOpen := true } }

/-- The event of a deferral that opens an episode (R24). -/
def deferralWrites (s : State) : List Act := if s.capture.deferralOpen then [] else [.event (deferral s)]

theorem deferFrame_ready {w v : State} (h : Ready w v) :
    deferFrame (put w v) = put ((deferralWrites v).foldl act w) (deferring v) := by
  cases ho : v.capture.deferralOpen with
  | true =>
    have hv : deferring v = { v with capture := { v.capture with trig := .deferred } } := by rw [deferring, ← ho]
    rw [deferralWrites, ho, hv]
    exact if_pos ho
  | false =>
    have he := emit_ready (v := deferring v) (h.change (u := deferring v)) (deferral v)
    rw [deferralWrites, ho]
    exact (if_neg (by rw [Bool.not_eq_true]; exact ho)).trans he

/-! ### The header of a store that is being filled -/

/-- What a store of bytes leaves in memory. -/
theorem act_store_mem (a : Nat) (bs : List Byte) (s : State) : (act s (.store a bs)).mem = storeBytes s.mem a bs := rfl

theorem readList_storeBytes_same : ∀ {bs : List Byte} {m : List Host.Cell} {a : Nat}, Memory.wf m = true →
    Memory.readList (storeBytes m a bs) a bs.length = bs
  | [], _, _, _ => rfl
  | b :: bs, m, a, h => by
    have hw := write_wf a b h
    rw [storeBytes, List.length_cons, Memory.readList, readList_storeBytes_same hw,
      read_storeBytes_outside hw (.inl (Nat.lt_succ_self a)), read_write h, if_pos rfl]

theorem readList_storeBytes_apart {m : List Host.Cell} {a b n : Nat} {bs : List Byte} (h : Memory.wf m = true)
    (hx : b + n ≤ a ∨ a + bs.length ≤ b) : Memory.readList (storeBytes m a bs) b n = Memory.readList m b n :=
  readList_congr fun i hi => read_storeBytes_outside h (by omega)

theorem startWrites_within {rs : List (Nat × Nat)} {s : State} {k : Nat} (p : FramePlan) (hh : storeHeader s k ∈ rs)
    (he : eventList s ∈ rs) : ∀ a ∈ startWrites k p s, Within rs s a := by
  intro a ha
  simp only [startWrites, List.cons_append, List.nil_append, List.mem_cons] at ha
  obtain rfl | rfl | rfl | ha := ha
  · exact within_store hh (Nat.le_refl _) (Nat.add_le_add_left (by decide : 2 ≤ 64) _)
  · exact within_store hh (Nat.le_add_right _ _) (by simp [storeHeader, le32])
  · exact within_store hh (Nat.le_add_right _ _) (by simp [storeHeader, le32])
  · exact within_events he a ha

theorem startWrites_header {s : State} {k : Nat} (p : FramePlan) (hr : RegionsOk s) (hw : Working s)
    (ha : Apart (storeHeader s k) (eventList s)) :
    let m := ((startWrites k p s).foldl act s).mem
    Memory.readList m (storeBase s.cfg k) 2 = [1, 0]
      ∧ Memory.readList m (storeBase s.cfg k + 4) 4 = le32 (s.capture.seq + 1).toNat
      ∧ Memory.readList m (storeBase s.cfg k + 40) 4 = le32 s.playout.frames.toNat := by
  intro m
  have hstored := acted_acts (as := fillingWrites k (s.capture.seq + 1) s) hr hw
  have hlist : eventList ((fillingWrites k (s.capture.seq + 1) s).foldl act s) = eventList s := by
    rw [hstored.frame]
    rfl
  have hevents := events_sameOutside (es := (startLamp p s).2) (hstored.regionsOk hr) (hstored.working hw)
  have hm : ∀ o n, o + n ≤ 64 → Memory.readList m (storeBase s.cfg k + o) n
      = Memory.readList ((fillingWrites k (s.capture.seq + 1) s).foldl act s).mem (storeBase s.cfg k + o) n := by
    intro o n hon
    have hread := readList_sameOutside hevents (a := storeBase s.cfg k + o) (n := n) fun i hi r hmem => by
      rw [List.mem_singleton.1 hmem, hlist]
      exact ha _ (by simp only [InRange, storeHeader]; omega)
    rw [← hread]
    simp only [m, startWrites, List.foldl_append]
    rfl
  have hw1 := storeBytes_wf (bs := [1, 0]) (a := storeBase s.cfg k) hr.1
  have hw2 := storeBytes_wf (bs := le32 (s.capture.seq + 1).toNat) (a := storeBase s.cfg k + 4) hw1
  refine ⟨(hm 0 2 (by omega)).trans ?_, (hm 4 4 (by omega)).trans ?_, (hm 40 4 (by omega)).trans ?_⟩
  · exact (readList_storeBytes_apart hw2 (.inl (by omega))).trans
      ((readList_storeBytes_apart hw1 (.inl (by omega))).trans (readList_storeBytes_same hr.1))
  · exact (readList_storeBytes_apart hw2 (.inl (by omega))).trans (readList_storeBytes_same hw1)
  · exact readList_storeBytes_same hw2

/-- While the strobe window is open a STROBE output is driven at its applied level (R77). -/
theorem lampPin_open {s : State} {i : Nat} {c : Channel} (hp : Working s) (h : s.lamp.strobe = true)
    (hc : s.lamp.channels[i]? = some c) (hm : c.mode = .strobe) : lampPin s i = some c.applied := by
  have hpart : ¬ (s.part = .off ∨ s.part = .loading) := by obtain hp | hp | hp := hp <;> simp [hp]
  simp [lampPin, hc, hm, h, hpart]

/-- Settles O34: the selection by the ring order, then the trigger start or the deferral. -/
theorem captureDueTriggersOrDefers : Obligations.CaptureDueTriggersOrDefers := by
  intro p s htrig hplan hw hr hring now start free seq
  have hstart : start = s.capture.selPtr.elim 0 (· + 1) := by cases hp : s.capture.selPtr <;> simp only [start, hp] <;> rfl
  have hready : Ready s (advance p.dueAt s) := (ready_self hr hw).change
  have hexec : exec .captureDue s = .next (captureSelect (put s (advance p.dueAt s))) := by
    change execCaptureDue s = _
    rw [execCaptureDue, hplan]
    exact congrArg Host.Outcome.next (if_pos htrig)
  refine ⟨boostWaiting_iff _, fun k => ?_, ?_, fun pin => ⟨pinIndex_none, fun k hk => pinIndex_some hk⟩, fun k hk => ?_,
    fun hk => ?_⟩
  · simp only [free, ← selectable_iff, hstart]
    exact selectStore_some
  · simp only [free, ← selectable_iff]
    exact selectStore_none
  · have hlt := selectStore_lt hk
    have hstarted := triggerStart_ready hready (storeHeader_le hr hlt) hplan
    have hselect : captureSelect (put s (advance p.dueAt s)) = triggerStart k (put s (advance p.dueAt s)) := by
      have hk' : selectStore (put s (advance p.dueAt s)) = some k := hk
      rw [captureSelect, hk']
    have hact : Acting (Within [storeHeader s k, eventList s] s) s (put ((startWrites k p s).foldl act s)
        (exposed k p seq (lit k p (advance p.dueAt s)))) :=
      (hready.change (u := exposed k p seq (lit k p (advance p.dueAt s)))).acting
        (startWrites_within p (by simp) (by simp))
    refine ⟨_, hexec.trans (congrArg _ (hselect.trans hstarted)), rfl, filling_ring k (advance p.dueAt s),
      startWrites_header p hr hw, ⟨rfl, rfl, rfl⟩, rfl, rfl, rfl, rfl, rfl, rfl, rfl, fun i c => lampPin_open hw rfl,
      hact.sameOutside, hact.list_eq, rfl⟩
  · have hselect : captureSelect (put s (advance p.dueAt s)) = deferFrame (put s (advance p.dueAt s)) := by
      have hk' : selectStore (put s (advance p.dueAt s)) = none := hk
      rw [captureSelect, hk']
    have hwithin : ∀ a ∈ deferralWrites s, Within [eventList s] s a := by
      unfold deferralWrites
      split
      · exact nofun
      · exact within_events (es := [deferral s]) (List.mem_singleton_self _)
    have hact : Acting (Within [eventList s] s) s (put ((deferralWrites s).foldl act s) (deferring (advance p.dueAt s))) :=
      (hready.change (u := deferring (advance p.dueAt s))).acting hwithin
    refine ⟨_, hexec.trans (congrArg _ (hselect.trans (deferFrame_ready hready))), rfl, fun ho => ?_, ⟨rfl, rfl, rfl⟩,
      hact.sameOutside, hact.list_eq, rfl⟩
    have hone : deferralWrites (advance p.dueAt s) = [.event (deferral s)] := if_neg (by simp [ho])
    rw [hone]
    exact emit_reported (e := deferral s) hr hw (by change 11 < 24; decide)

end Sys2Proof.Proofs

namespace Sys2Proof.Proofs

open Sys2Proof.Machine Sys2Proof.Safety Sys2Proof.Laws

/-! ## The frame in READOUT and its lines (R27, R28, R30, R33) -/

theorem frameInReadout_some {f : Frame} {p : FramePlan} {s : State} (ht : s.capture.trig = .readout)
    (hf : s.capture.frame = some f) (hp : s.capture.plan = some p) : frameInReadout s = some (f, p.boost) := by
  rw [frameInReadout, if_pos ht, hf, hp]

theorem frameInReadout_none {s : State} (h : s.capture.trig ≠ .readout ∨ s.capture.frame = none ∨ s.capture.plan = none) :
    frameInReadout s = none := by
  unfold frameInReadout
  split
  · rename_i ht
    obtain h | h | h := h
    · exact absurd ht h
    · rw [h]
    · rw [h]
      cases s.capture.frame <;> rfl
  · rfl

/-- Data with no frame in READOUT is discarded (R27). -/
theorem exec_pixelLine_outside {m : Nat} {bytes : List Byte} {s : State} (h : frameInReadout s = none) :
    exec (.pixelLine m bytes) s = .next (advance m s) := by
  have h' : frameInReadout (advance m s) = none := h
  change execPixelLine m bytes s = _
  rw [execPixelLine, pixelLineOp, h']

theorem exec_frameValidFall_outside {m : Nat} {s : State} (h : frameInReadout s = none) :
    exec (.frameValidFall m) s = .next (advance m s) := by
  have h' : frameInReadout (advance m s) = none := h
  change execFrameValidFall m s = _
  simp only [execFrameValidFall, h']

theorem exec_frameValidRise_outside {s : State} (h : frameInReadout s = none) : exec .frameValidRise s = .next s := by
  change execFrameValidRise s = _
  rw [execFrameValidRise, h]

/-- The first rise of frame-valid in READOUT begins the frame's picture (R27). -/
theorem exec_frameValidRise {s : State} {f : Frame} {boost : Bool} (h : frameInReadout s = some (f, boost)) :
    exec .frameValidRise s = .next { s with capture := { s.capture with frame := some { f with picture := true } } } := by
  change execFrameValidRise s = _
  rw [execFrameValidRise, h]

section

variable {m : Nat} {bytes : List Byte} {s : State} {f : Frame} {boost : Bool} (h : frameInReadout s = some (f, boost))
include h

/-- A line of the frame's picture is taken, any other discarded (R27, R28). -/
theorem exec_pixelLine : exec (.pixelLine m bytes) s
    = .next (if f.picture ∧ f.lines < s.cfg.height then takeLine f boost bytes (advance m s) else advance m s) := by
  have h' : frameInReadout (advance m s) = some (f, boost) := h
  change execPixelLine m bytes s = _
  rw [execPixelLine, pixelLineOp, h']
  rfl

/-- An early fall of frame-valid abandons the frame (R28). -/
theorem exec_frameValidFall : exec (.frameValidFall m) s
    = .next (if f.picture ∧ f.lines < s.cfg.height then abandonFrame f boost (advance m s) else advance m s) := by
  have h' : frameInReadout (advance m s) = some (f, boost) := h
  change execFrameValidFall m s = _
  simp only [execFrameValidFall, h']
  rfl

end

/-- Data before the picture or after its last line is discarded. -/
theorem exec_outside_picture {m : Nat} {bytes : List Byte} {s : State} {f : Frame} (hf : s.capture.frame = some f)
    (h : f.picture = false ∨ s.cfg.height ≤ f.lines) :
    exec (.pixelLine m bytes) s = .next (advance m s) ∧ exec (.frameValidFall m) s = .next (advance m s) := by
  have hno : ¬ (f.picture = true ∧ f.lines < s.cfg.height) := by
    obtain h | h := h
    · simp [h]
    · exact fun hc => by omega
  cases hr : frameInReadout s with
  | none => exact ⟨exec_pixelLine_outside hr, exec_frameValidFall_outside hr⟩
  | some x =>
    obtain ⟨g, boost⟩ := x
    have hg : g = f := by
      unfold frameInReadout at hr
      split at hr
      · rw [hf] at hr
        cases hp : s.capture.plan <;> rw [hp] at hr <;> simp at hr
        exact hr.1.symm
      · cases hr
    subst hg
    rw [exec_pixelLine hr, exec_frameValidFall hr, if_neg hno, if_neg hno]
    exact ⟨rfl, rfl⟩

/-! ### What is stored of a line -/

theorem lineStored_length (s : State) (f : Frame) (bytes : List Byte) :
    (lineStored s f bytes).length = 2 * linePixels s.cfg bytes := by
  have hkept : (bytes.take (2 * linePixels s.cfg bytes)).length = 2 * linePixels s.cfg bytes := by
    rw [List.length_take, linePixels]
    omega
  rw [lineStored]
  split
  · rw [burnLine, List.length_mapIdx, hkept]
  · exact hkept

/-- A line of a store lies in its store (R19). -/
theorem lineBase_le {s : State} {k line : Nat} (h : RegionsOk s) (hk : k < s.cfg.stores) (hl : line < s.cfg.height) :
    lineBase s.cfg k line + 2 * s.cfg.width ≤ 2 ^ 32 := by
  obtain ⟨-, -, -, -, -, -, -, hring, hstride⟩ := h
  have hstores : (k + 1) * s.cfg.stride ≤ s.cfg.stores * s.cfg.stride := Nat.mul_le_mul_right _ hk
  have hlines : (line + 1) * s.cfg.width ≤ s.cfg.height * s.cfg.width := Nat.mul_le_mul_right _ hl
  rw [Nat.succ_mul] at hstores hlines
  rw [Nat.mul_comm s.cfg.width] at hstride
  unfold lineBase storeBase
  omega

theorem linePixels_le (cfg : Cfg) (bytes : List Byte) : linePixels cfg bytes ≤ cfg.width := Nat.min_le_left _ _

/-- The store of a received line. -/
def lineStore (f : Frame) (bytes : List Byte) (s : State) : Act :=
  .store (lineBase s.cfg f.store f.lines) (lineStored s f bytes)

theorem lineStore_le {s : State} {f : Frame} {bytes : List Byte} (h : RegionsOk s) (hk : f.store < s.cfg.stores)
    (hl : f.lines < s.cfg.height) :
    lineBase s.cfg f.store f.lines + (lineStored s f bytes).length ≤ 2 ^ 32 := by
  have hle := lineBase_le h hk hl
  have hpx := linePixels_le s.cfg bytes
  rw [lineStored_length]
  omega

/-- The frame with one line more (R27, R30). -/
def nextLine (f : Frame) (bytes : List Byte) (s : State) : State :=
  { s with capture := { s.capture with
      frame := some { f with lines := f.lines + 1, meterSum := f.meterSum + meterLine s.cfg f.lines bytes } } }

theorem takeLine_ready {w v : State} {f : Frame} {boost : Bool} {bytes : List Byte} (h : Ready w v)
    (hl : lineBase v.cfg f.store f.lines + (lineStored v f bytes).length ≤ 2 ^ 32) : takeLine f boost bytes (put w v) =
      if linePixels v.cfg bytes < v.cfg.width then abandonFrame f boost (put (act w (lineStore f bytes v)) v)
      else put (act w (lineStore f bytes v)) (nextLine f bytes v) :=
  onward_write h hl _

/-! ### The burn-in pixel (R33, R61) -/

/-- A byte of the stamp field is painted, any other stays as received. -/
theorem burnByte_eq (cfg : Cfg) (o : Overlay) (text : List Byte) (line i : Nat) (received : Byte) :
    let x := i / 2
    let col := x / (16 * cfg.scale)
    burnByte cfg o text line i received =
      if line / (24 * cfg.scale) = cfg.stampRow ∧ cfg.stampCol ≤ col ∧ col < cfg.stampCol + 10 then
        paint o (if glyphBit o.glyphs (text.getD (col - cfg.stampCol) 0x20).toNat (line % (24 * cfg.scale) / cfg.scale)
          (x % (16 * cfg.scale) / cfg.scale) then fgIndex cfg.stampAttr else bgIndex cfg.stampAttr)
          (componentAt x (i % 2)) received
      else received := rfl

theorem paint_keyed {o : Overlay} {p : BitVec 4} {c : Component} {video : Byte} (h : (p ^^^ o.key) &&& o.care = 0) :
    paint o p c video = video := if_pos (beq_iff_eq.2 h)

theorem paint_blended {o : Overlay} {p : BitVec 4} {c : Component} {video : Byte} (h : (p ^^^ o.key) &&& o.care ≠ 0) :
    paint o p c video = blend (o.palette.getD p.toNat {}) c video := if_neg (by simpa [keyed] using h)

/-- The blend by the component that a byte carries. -/
theorem blend_component (e : PaletteEntry) (x b : Nat) (video : Byte) :
    let ov := if b = 1 then e.y else if x % 2 = 0 then e.cb else e.cr
    blend e (componentAt x b) video = byte ((e.opacity * ov.toNat + (16 - e.opacity) * video.toNat + 8) / 16) := by
  unfold componentAt
  split
  · rfl
  · split <;> rfl

theorem lineStored_plain {s : State} {f : Frame} {bytes : List Byte} (hb : s.cfg.burnIn = false)
    (hl : 2 * s.cfg.width ≤ bytes.length) : lineStored s f bytes = bytes.take (2 * s.cfg.width) := by
  have hpx : linePixels s.cfg bytes = s.cfg.width := by rw [linePixels]; omega
  simp only [lineStored, hb, hpx, Bool.false_eq_true, if_false]

theorem lineStored_burnt {s : State} {f : Frame} {bytes : List Byte} {i : Nat} (hb : s.cfg.burnIn = true)
    (hl : 2 * s.cfg.width ≤ bytes.length) (hi : i < 2 * s.cfg.width) :
    (lineStored s f bytes).getD i 0 = burnByte s.cfg s.overlay f.burnText f.lines i (bytes.getD i 0) := by
  have hpx : linePixels s.cfg bytes = s.cfg.width := by rw [linePixels]; omega
  simp only [lineStored, hb, hpx, if_true, burnLine, List.getD_eq_getElem?_getD, List.getElem?_mapIdx, List.getElem?_take_of_lt hi,
    List.getElem?_eq_getElem (show i < bytes.length by omega), Option.map_some, Option.getD_some]

/-- Settles O36: the burn-in pixel, data outside a picture, and a whole line of it. -/
theorem pictureLinesStored : Obligations.PictureLinesStored := by
  refine ⟨fun cfg o text line i received => ?_, fun m bytes s h => ?_, fun m bytes p f s hp hf => ⟨fun ht => ?_, ?_, ?_⟩⟩
  · intro x col inField lit index e ov burnt
    have heq : burnt = if inField then paint o index (componentAt x (i % 2)) received else received :=
      burnByte_eq cfg o text line i received
    refine ⟨fun hn => heq.trans (if_neg hn), fun hin hk => ?_, fun hin hk => ?_⟩
    · exact heq.trans ((if_pos hin).trans (paint_keyed hk))
    · exact heq.trans ((if_pos hin).trans ((paint_blended hk).trans (blend_component e x (i % 2) received)))
  · have hnone := frameInReadout_none h
    exact ⟨exec_frameValidRise_outside hnone, exec_frameValidFall_outside hnone, exec_pixelLine_outside hnone⟩
  · exact exec_frameValidRise (frameInReadout_some ht hf hp)
  · exact exec_outside_picture hf
  · intro ht hpic hlines hw hr hk hlen base inWindow luma
    have hready : Ready s (advance m s) := (ready_self hr hw).change
    have hstored : (lineStored s f bytes).length = 2 * s.cfg.width := by
      rw [lineStored_length, linePixels]
      omega
    have hact : Acting (Within [(base, 2 * s.cfg.width)] s) s
        (put (act s (lineStore f bytes s)) (nextLine f bytes (advance m s))) :=
      (hready.change (u := nextLine f bytes (advance m s))).acting (as := [lineStore f bytes s]) fun a ha => by
        rw [List.mem_singleton.1 ha]
        exact within_store (List.mem_singleton_self _) (Nat.le_refl _) (by rw [hstored]; exact Nat.le_refl _)
    refine ⟨put (act s (lineStore f bytes s)) (nextLine f bytes (advance m s)), ?_, fun hb => ?_, fun hb i hi => ?_, hact.sameOutside, rfl⟩
    · rw [exec_pixelLine (frameInReadout_some ht hf hp), if_pos ⟨hpic, hlines⟩]
      refine congrArg Host.Outcome.next ((takeLine_ready hready (lineStore_le hr hk hlines)).trans (if_neg ?_))
      simp only [advance_cfg, linePixels]
      omega
    · rw [← lineStored_plain (f := f) hb hlen]
      have hread := readList_storeBytes_same (bs := lineStored s f bytes) (a := base) hr.1
      rw [hstored] at hread
      exact hread
    · rw [← lineStored_burnt hb hlen hi]
      exact read_storeBytes_inside hr.1 (by rw [hstored]; exact hi)

end Sys2Proof.Proofs

namespace Sys2Proof.Proofs

open Sys2Proof.Machine Sys2Proof.Safety Sys2Proof.Laws

/-! ## A release reported to the capture unit (R24) -/

/-- A selection looks at the ring table alone. -/
theorem selectStore_congr {s t : State} (hc : t.cfg = s.cfg) (hp : t.capture = s.capture) (hr : t.ring = s.ring) :
    selectStore t = selectStore s := by
  simp only [selectStore, selectionOrder, storesInUse, storeAt, hc, hp, hr]

theorem writes_put (as : List Act) (s v : State) : Writes as s (put (as.foldl act s) v) := ⟨rfl, rfl, rfl⟩

/-- A frame triggered, on a state split into what acts change and the rest. -/
theorem startFrame_ready {w v : State} {k : Nat} {p : FramePlan} (h : Ready w v) : startFrame k p (put w v)
    = put ((startWrites k p v).foldl act w) (exposed k p (v.capture.seq + 1) (lit k p v)) := by
  have hfields : startFrame k p (put w v) = { (startWrites k p v).foldl act (put w v) with
      lamp := (lit k p v).lamp
      ring := v.ring.set k { storeAt v k with state := .filling, seq := v.capture.seq + 1, hold := false }
      capture := (startFrame k p (put w v)).capture, still := (startFrame k p (put w v)).still } := rfl
  rw [hfields, startFrame_still, ← filling_ring, acts_put h.regions h.working h.alike]
  rfl

/-- A trigger start as the statements give it. -/
theorem triggerStart_started {s : State} {k : Nat} {p : FramePlan} (hr : RegionsOk s) (hw : Working s)
    (hk : k < s.cfg.stores) (hp : s.capture.plan = some p) : triggerStart k s = startFrame k p s :=
  (triggerStart_ready (ready_self hr hw) (storeHeader_le hr hk) hp).trans (startFrame_ready (ready_self hr hw)).symm

theorem retried_started {s : State} {k : Nat} {p : FramePlan} (ht : s.capture.trig = .deferred) (hk : selectStore s = some k)
    (hp : s.capture.plan = some p) : retried s = startFrame k p s := by
  simp only [retried, ht, hk, hp]

/-- Every other capture unit takes no notice of a release. -/
theorem retried_same {s : State} (h : s.capture.trig ≠ .deferred ∨ selectStore s = none ∨ s.capture.plan = none) :
    retried s = s := by
  unfold retried
  split
  · rename_i ht hk hp
    simp [ht, hk, hp] at h
  · rfl

/-- A DEFERRED capture unit repeats its selection at a release (R24). -/
theorem reportRelease_retried {s : State} (hr : RegionsOk s) (hw : Working s) : reportRelease s = retried s := by
  unfold reportRelease
  split
  · rename_i ht
    match hk : selectStore s, hp : s.capture.plan with
    | some k, some p =>
      rw [retried_started ht hk hp]
      exact triggerStart_started hr hw (selectStore_lt hk) hp
    | some k, none =>
      rw [retried_same (.inr (.inr hp))]
      simp only [triggerStart, hp]
    | none, _ => rw [retried_same (.inr (.inl hk))]
  · rename_i ht
    rw [retried_same (.inl ht)]

/-- What a release does but for its acts: a frame triggered, or nothing. -/
theorem retried_cases (s : State) : retried s = s ∨ ∃ k p, s.capture.trig = .deferred ∧ selectStore s = some k
    ∧ s.capture.plan = some p ∧ retried s = startFrame k p s := by
  unfold retried
  split
  · rename_i ht hk hp
    exact .inr ⟨_, _, ht, hk, hp, rfl⟩
  · exact .inl rfl

/-! ## FRAME_HOLD and FRAME_RELEASE (R36, R37) -/

/-! ### The stores of the ring table -/

/-- The first store in index order that satisfies a condition. -/
theorem find?_storesInUse_none {s : State} {q : Nat → Bool} (h : ∀ k < s.cfg.stores, ¬ q k = true) :
    (storesInUse s).find? q = none := List.find?_range_eq_none.2 fun k hk => by simp [h k hk]

theorem find?_storesInUse_some {s : State} {q : Nat → Bool} {k : Nat} (hk : k < s.cfg.stores) (h : q k = true)
    (hj : ∀ j < k, ¬ q j = true) : (storesInUse s).find? q = some k :=
  List.find?_range_eq_some.2 ⟨h, List.mem_range.2 hk, fun j hlt => by simp [hj j hlt]⟩

/-- One more of the numbers below `n` satisfies `q` than `p`, where the two differ at `k` alone. -/
theorem filter_range_length {p q : Nat → Bool} {k : Nat} (hq : ∀ j, j ≠ k → q j = p j) (hp : p k = false)
    (hk : q k = true) : ∀ n, ((List.range n).filter q).length = ((List.range n).filter p).length + if k < n then 1 else 0
  | 0 => rfl
  | n + 1 => by
    have ih := filter_range_length hq hp hk n
    simp only [List.range_succ, List.filter_append, List.length_append, ih]
    by_cases hn : n = k
    · subst hn
      simp [hp, hk]
    · have hlt : k < n + 1 ↔ k < n := by omega
      rw [List.filter_singleton, List.filter_singleton, hq n hn]
      simp only [hlt]
      omega

theorem storeAt_set {s t : State} {k j : Nat} {e : RingEntry} (ht : t.ring = s.ring.set k e) (hk : k < s.ring.length) :
    storeAt t j = if j = k then e else storeAt s j := by
  simp only [storeAt, ht, List.getD_eq_getElem?_getD, List.getElem?_set]
  by_cases hj : j = k
  · subst hj
    simp [hk]
  · simp [hj, Ne.symm hj]

/-- The number of held stores after a hold (R36). -/
theorem heldStores_hold {s t : State} {k : Nat} (hlen : s.cfg.stores ≤ s.ring.length) (hk : k < s.cfg.stores)
    (hcfg : t.cfg = s.cfg) (ht : t.ring = s.ring.set k { storeAt s k with hold := true }) (hold : (storeAt s k).hold = false) :
    heldStores t = heldStores s + 1 := by
  have hat := fun j => storeAt_set (j := j) ht (Nat.lt_of_lt_of_le hk hlen)
  have hcount := filter_range_length (p := fun j => (storeAt s j).hold) (q := fun j => (storeAt t j).hold) (k := k)
    (fun j hj => by rw [hat, if_neg hj]) hold (by rw [hat, if_pos rfl]) s.cfg.stores
  rw [if_pos hk] at hcount
  rw [heldStores, heldStores, storesInUse, storesInUse, hcfg, hcount]

/-- The number of held stores after a release (R37). -/
theorem heldStores_release {s t : State} {k : Nat} (hlen : s.cfg.stores ≤ s.ring.length) (hk : k < s.cfg.stores)
    (hcfg : t.cfg = s.cfg) (ht : t.ring = s.ring.set k { storeAt s k with hold := false }) (hold : (storeAt s k).hold = true) :
    heldStores t = heldStores s - 1 := by
  have hat := fun j => storeAt_set (j := j) ht (Nat.lt_of_lt_of_le hk hlen)
  have hcount := filter_range_length (p := fun j => (storeAt t j).hold) (q := fun j => (storeAt s j).hold) (k := k)
    (fun j hj => by rw [hat, if_neg hj]) (by rw [hat, if_pos rfl]) hold s.cfg.stores
  rw [if_pos hk] at hcount
  rw [heldStores, heldStores, storesInUse, storesInUse, hcfg, hcount]
  rfl

/-! ### The two requests -/

/-- The hold of a store set or cleared, in its entry and in its header (R36, R37). -/
def holdSet (k : Nat) (b : Bool) (s : State) : State :=
  { s with
    ring := s.ring.set k { storeAt s k with hold := b }
    mem := Memory.write s.mem (storeBase s.cfg k + 1) (flagByte b) }

/-- The hold changes, and the request is answered with the new count. -/
theorem answerHeld_ready {r : Request} {s : State} {k : Nat} {b : Bool} (hr : RegionsOk s) (hw : Working s)
    (hk : k < s.cfg.stores) (hs : r.slot + 64 ≤ 2 ^ 32) :
    answerHeld r k (flagByte b) (updateStore k (fun e => { e with hold := b }) s)
      = answered r.slot rcOk k (heldStores (holdSet k b s)) (holdSet k b s) := by
  have hle := storeHeader_le hr hk
  have hready : Ready s (updateStore k (fun e => { e with hold := b }) s) := (ready_self hr hw).change
  have hring : (updateStore k (fun e => { e with hold := b }) s).ring = s.ring.set k { storeAt s k with hold := b } :=
    updateAt_getD ..
  have hset : put (act s (.store (storeBase s.cfg k + 1) [flagByte b])) (updateStore k (fun e => { e with hold := b }) s)
      = holdSet k b s := by
    rw [holdSet, ← hring]
    rfl
  refine (onward_write hready (a := storeBase s.cfg k + 1) (bs := [flagByte b]) ?_ _).trans ?_
  · simp only [List.length_singleton]
    omega
  · refine (complete_ready (hready.act _) hs rcOk k _).trans ?_
    rw [hset]
    exact congrArg (answered r.slot rcOk k (heldStores (holdSet k b s))) hset

/-- In RUNNING nothing follows a hand-over that only acted. -/
theorem handOver_acting {P : Act → Prop} {k : Nat} {r : Request} {s u : State} {isKind : Nat → Bool}
    {f : Request → State → State} (h : InHand k r s) (hk : isKind k = true) (hf : f r (released s) = u)
    (hact : Acting P (released s) u) (hp : u.part = .running) : handOver isKind f s = u := by
  obtain ⟨-, hh, hkind, hsync, -, -⟩ := h
  rw [handOver_eq hh (by rw [hkind, hk]), hf]
  exact finishHand_running hp (by rw [hact.list_eq]; exact hsync)

/-- FRAME_HOLD by the store with the sequence (R36). -/
theorem frameHoldOp_none {r : Request} {s : State}
    (h : ∀ k < s.cfg.stores, ¬ ((storeAt s k).state = .complete ∧ (storeAt s k).seq = argSequence r.args)) :
    frameHoldOp r s = complete r.slot rcNotPresent 0 0 s := by
  have hnone : completeStore s (argSequence r.args) = none :=
    find?_storesInUse_none fun k hk hq => h k hk (by simpa using hq)
  rw [frameHoldOp, hnone]

theorem frameHoldOp_some {r : Request} {s : State} {k : Nat} (hk : k < s.cfg.stores)
    (h : (storeAt s k).state = .complete ∧ (storeAt s k).seq = argSequence r.args)
    (hj : ∀ j < k, ¬ ((storeAt s j).state = .complete ∧ (storeAt s j).seq = argSequence r.args)) : frameHoldOp r s =
      if (storeAt s k).hold then complete r.slot rcOk k (heldStores s) s
      else if s.cfg.stores - 2 ≤ heldStores s then complete r.slot rcHoldLimit 0 0 s
      else holdStore r k s := by
  have hfound : completeStore s (argSequence r.args) = some k :=
    find?_storesInUse_some hk (by simpa using h) fun j hlt hq => hj j hlt (by simpa using hq)
  rw [frameHoldOp, hfound]

/-- FRAME_RELEASE by the held store with the sequence (R37). -/
theorem frameReleaseOp_none {r : Request} {s : State}
    (h : ∀ k < s.cfg.stores, ¬ ((storeAt s k).hold = true ∧ (storeAt s k).seq = argSequence r.args)) :
    frameReleaseOp r s = complete r.slot rcNotHeld 0 0 s := by
  have hnone : heldStore s (argSequence r.args) = none :=
    find?_storesInUse_none fun k hk hq => h k hk (by simpa using hq)
  rw [frameReleaseOp, hnone]

/-- What a FRAME_RELEASE of store `k` does with memory and the attention bits before its report (R37). -/
def releaseActs (r : Request) (k : Nat) (s : State) : List Act :=
  [.store (storeBase s.cfg k + 1) [0], .answer r.slot 0 k (heldStores s - 1)]

/-- The store released and the request answered. -/
def releasing (r : Request) (k : Nat) (s : State) : State := answered r.slot 0 k (heldStores s - 1) (holdSet k false s)

theorem selectStore_releasing (r : Request) (k : Nat) (s : State) :
    selectStore (releasing r k s) = selectStore (holdSet k false s) := selectStore_congr rfl rfl rfl

theorem releasing_put (r : Request) (k : Nat) (s : State) :
    releasing r k s = put ((releaseActs r k s).foldl act s) (holdSet k false s) := rfl

section

variable {rs : List (Nat × Nat)} {r : Request} {s : State} {k : Nat}

theorem releaseActs_within (hh : storeHeader s k ∈ rs) (hs : slotHead r.slot ∈ rs) :
    ∀ a ∈ releaseActs r k s, Within rs s a := by
  intro a ha
  simp only [releaseActs, List.mem_cons, List.not_mem_nil, or_false] at ha
  obtain rfl | rfl := ha
  · exact within_store hh (Nat.le_add_right _ _) (by simp [storeHeader])
  · exact within_answer _ _ _ hs

theorem releasing_acting {P : Act → Prop} (hr : RegionsOk s) (hw : Working s) (hP : ∀ a ∈ releaseActs r k s, P a) :
    Acting P s (releasing r k s) := by
  rw [releasing_put]
  exact ((ready_self hr hw).change (u := { s with ring := (holdSet k false s).ring })).acting hP

theorem frameReleaseOp_some (hr : RegionsOk s) (hw : Working s) (hs : r.slot + 64 ≤ 2 ^ 32) (hlen : s.cfg.stores ≤ s.ring.length)
    (hk : k < s.cfg.stores) (h : (storeAt s k).hold = true ∧ (storeAt s k).seq = argSequence r.args)
    (hj : ∀ j < k, ¬ ((storeAt s j).hold = true ∧ (storeAt s j).seq = argSequence r.args)) :
    frameReleaseOp r s = retried (releasing r k s) := by
  have hfound : heldStore s (argSequence r.args) = some k :=
    find?_storesInUse_some hk (by simpa using h) fun j hlt hq => hj j hlt (by simpa using hq)
  have hcount : heldStores (holdSet k false s) = heldStores s - 1 := heldStores_release hlen hk rfl rfl h.1
  have hanswer : answerHeld r k 0 (updateStore k (fun e => { e with hold := false }) s) = releasing r k s := by
    rw [releasing, ← hcount]
    exact answerHeld_ready (b := false) hr hw hk hs
  have hact := releasing_acting (P := anyAct) (r := r) (k := k) hr hw fun _ _ => trivial
  have hop : frameReleaseOp r s
      = onward (answerHeld r k 0 (updateStore k (fun e => { e with hold := false }) s)) reportRelease := by
    rw [frameReleaseOp, hfound]
    exact (onward_assoc ..).symm
  rw [hop, hanswer, onward_of_ne (ne_faulted_of_working hact.target_working)]
  exact reportRelease_retried hact.regionsOk hact.target_working

end

/-- A trigger start as acts. -/
theorem startFrame_acting {P : Act → Prop} {s : State} {k : Nat} {p : FramePlan} (hr : RegionsOk s) (hw : Working s)
    (hP : ∀ a ∈ startWrites k p s, P a) : Acting P s (startFrame k p s) ∧ (startFrame k p s).part = s.part := by
  have hstart := startFrame_ready (k := k) (p := p) (ready_self hr hw)
  rw [put_self] at hstart
  rw [hstart]
  exact ⟨((ready_self hr hw).change (u := exposed k p (s.capture.seq + 1) (lit k p s))).acting hP, rfl⟩

/-- A trigger start or nothing, as acts. -/
theorem retried_acting {P : Act → Prop} {s : State} (hr : RegionsOk s) (hw : Working s)
    (hP : ∀ k p, selectStore s = some k → ∀ a ∈ startWrites k p s, P a) :
    Acting P s (retried s) ∧ (retried s).part = s.part := by
  obtain h | ⟨k, p, -, hk, -, h⟩ := retried_cases s <;> rw [h]
  · exact ⟨.refl hr hw, rfl⟩
  · exact startFrame_acting hr hw (hP k p hk)

/-- Settles O27: the cases of R36's table, then a release with the count it leaves and the deferral it ends. -/
theorem frameHoldAndRelease : Obligations.FrameHoldAndRelease := by
  intro r s hlen
  refine ⟨rfl, fun hin => ?_, fun hin => ?_⟩
  · have ⟨hp, _, _, _, hr, hs⟩ := hin
    have hw : Working (released s) := .inl hp
    have hans : ∀ code w0 w1, frameHoldOp r (released s) = complete r.slot code w0 w1 (released s) →
        exec .frameHold s = .next (answered r.slot code w0 w1 (released s)) := fun code w0 w1 hf =>
      congrArg Host.Outcome.next (handOver_answered (f := frameHoldOp) hin (beq_self_eq_true 7) hf)
    refine ⟨fun hno => hans _ _ _ (frameHoldOp_none (s := released s) hno), fun k hk hit hbefore => ?_⟩
    have hfirst := frameHoldOp_some (s := released s) hk hit hbefore
    refine ⟨fun hhold => hans _ _ _ (hfirst.trans (if_pos hhold)), fun hhold hfull => hans _ _ _ ?_, fun hhold hroom => ?_⟩
    · exact hfirst.trans ((if_neg (by rw [Bool.not_eq_true]; exact hhold)).trans (if_pos hfull))
    · have hcount : heldStores (holdSet k true (released s)) = heldStores s + 1 := heldStores_hold (s := s) hlen hk rfl rfl hhold
      have hstore : frameHoldOp r (released s) = answered r.slot 0 k (heldStores s + 1) (holdSet k true (released s)) := by
        rw [← hcount]
        refine hfirst.trans ((if_neg (by rw [Bool.not_eq_true]; exact hhold)).trans ((if_neg (Nat.not_le.2 hroom)).trans ?_))
        exact answerHeld_ready (s := released s) (b := true) hr hw hk hs
      have hready := (ready_self (s := released s) hr hw).change
        (u := { released s with ring := (holdSet k true (released s)).ring })
      exact congrArg Host.Outcome.next (handOver_acting hin (beq_self_eq_true 7) hstore
        (hready.acting (P := anyAct) (as := [.store (storeBase s.cfg k + 1) [1], .answer r.slot 0 k (heldStores s + 1)])
          fun _ _ => trivial) hp)
  · have ⟨hp, _, _, _, hr, hs⟩ := hin
    have hw : Working (released s) := .inl hp
    refine ⟨fun hno => congrArg Host.Outcome.next (handOver_answered (f := frameReleaseOp) hin (beq_self_eq_true 8)
      (frameReleaseOp_none (s := released s) hno)), ?_⟩
    intro k hk hit hbefore freed
    have hfreed : freed = holdSet k false (released s) := rfl
    have hrel := frameReleaseOp_some (s := released s) hr hw hs hlen hk hit hbefore
    have hselect := selectStore_releasing r k (released s)
    rw [hfreed]
    clear_value freed
    have hacts : ∀ {P : Act → Prop}, (∀ a ∈ releaseActs r k (released s), P a) →
        (∀ j p, selectStore (releasing r k (released s)) = some j → ∀ a ∈ startWrites j p s, P a) →
        Acting P (released s) (retried (releasing r k (released s)))
          ∧ exec .frameRelease s = .next (retried (releasing r k (released s))) := fun hP hP' => by
      have hact := releasing_acting (s := released s) hr hw hP
      obtain ⟨hact', hpart⟩ := retried_acting hact.regionsOk hact.target_working hP'
      have hall := hact.trans hact'
      exact ⟨hall, congrArg Host.Outcome.next (handOver_acting hin (beq_self_eq_true 8) hrel hall (hpart.trans hp))⟩
    refine ⟨(hacts (P := anyAct) (fun _ _ => trivial) fun _ _ _ _ _ => trivial).2, fun j p ht hplan hj => ?_⟩
    rw [← hselect] at hj
    obtain ⟨hact, hexec⟩ := hacts (P := Within [slotHead r.slot, eventList s, storeHeader s k, storeHeader s j] (released s))
      (releaseActs_within (by simp [storeHeader, released]) (by simp)) fun j' p hj' => by
        obtain rfl : j' = j := Option.some.inj (hj'.symm.trans hj)
        exact startWrites_within (s := s) p (by simp) (by simp)
    have hready : Ready ((releaseActs r k (released s)).foldl act (released s)) (holdSet k false (released s)) :=
      ((ready_self (s := released s) hr hw).acts _).change
    have hstart := startFrame_ready (k := j) (p := p) hready
    rw [← releasing_put, ← retried_started (s := releasing r k (released s)) ht hj hplan, ← List.foldl_append] at hstart
    refine ⟨_, hexec, ?_, ?_, ?_, hact.sameOutside, hact.list_eq⟩ <;> rw [hstart]
    · rfl
    · rfl
    · exact writes_put _ _ _

end Sys2Proof.Proofs

namespace Sys2Proof.Proofs

open Sys2Proof.Machine Sys2Proof.Safety Sys2Proof.Laws

/-! ## The end of a capture frame and the next one (R22, R29, R31) -/

/-- The capture unit with no frame and no plan. -/
def idled (s : State) : State :=
  { s with capture := { s.capture with trig := .idle, plan := none, frame := none } }

/-- The next frame in RUNNING, none in HALTING. -/
def plannedOn (s : State) : State := if s.part = .running then nextFrame s else s

/-- A planned frame looks at what is left of the capture unit once its plan is there. -/
theorem awaited_congr {p : FramePlan} {s t : State} (h : waiting p s = waiting p t) : awaited p s = awaited p t := by
  have hw : ∀ s, awaited p s = if (waiting p s).now < p.dueAt then waiting p s else match selectStore (waiting p s) with
    | some k => startFrame k p (waiting p s)
    | none => deferFrom (waiting p s) := fun _ => rfl
  rw [hw, hw, h]

/-- After a completion or an abandonment (R29, R31). -/
theorem planNext_eq {s : State} (hr : RegionsOk s) : planNext s = plannedOn (idled s) := by
  by_cases hp : s.part = .running
  · have hplan : plannedOn (idled s) = nextFrame (idled s) := if_pos hp
    have hreach : Reaching s := ⟨hp, hr⟩
    have hfix : Reaching (fixPlan { s with capture := { s.capture with plan := none, frame := none } }) := hreach.change
    have hnext : planNext s = awaitDue (fixPlan { s with capture := { s.capture with plan := none, frame := none } }) :=
      if_pos hp
    rw [hplan, hnext, nextFrame_eq, awaitDue_awaited (p := nextPlan (boostWaiting s.still) (idled s)) hfix rfl]
    exact awaited_congr rfl
  · have hplan : plannedOn (idled s) = idled s := if_neg hp
    rw [hplan]
    exact if_neg hp

/-! ### What the next frame leaves -/

section

variable {P : Act → Prop} {s : State}

theorem deferFrom_eq (hr : RegionsOk s) (hw : Working s) :
    deferFrom s = put ((deferralWrites s).foldl act s) (deferring s) := by
  unfold deferFrom deferralWrites
  split
  · rfl
  · rw [(acted_emit (e := deferral s) hr hw).frame]
    rfl

theorem deferFrom_acting (hr : RegionsOk s) (hw : Working s) (he : ∀ e, P (.event e)) : Acting P s (deferFrom s) := by
  rw [deferFrom_eq hr hw]
  refine ((ready_self hr hw).change (u := deferring s)).acting fun a ha => ?_
  unfold deferralWrites at ha
  split at ha
  · cases ha
  · rw [List.mem_singleton.1 ha]
    exact he _

/-- What a new plan leaves of the part: the other blocks, the counters of the capture unit, the origins of the still orders. -/
structure Planned (s t : State) : Prop where
  frame : t = put t { s with capture := t.capture, lamp := t.lamp, ring := t.ring, still := t.still }
  los : t.capture.los = s.capture.los
  completed : t.capture.completed = s.capture.completed
  origins : t.still.orders.map (·.origin) = s.still.orders.map (·.origin)

theorem Planned.trans {s t u : State} (h : Planned s t) (h' : Planned t u) : Planned s u where
  frame := by
    have h1 := h.frame
    have h2 := h'.frame
    generalize t.capture = c at h1
    generalize t.lamp = l at h1
    generalize t.ring = r at h1
    generalize t.still = x at h1
    rw [h1] at h2
    exact h2
  los := h'.los.trans h.los
  completed := h'.completed.trans h.completed
  origins := h'.origins.trans h.origins

theorem noteBoostSeq_origins (seq : Word) (x : Still) :
    (noteBoostSeq seq x).orders.map (·.origin) = x.orders.map (·.origin) := by
  unfold noteBoostSeq
  split
  · rfl
  · rename_i o os ho
    split <;> simp [ho]

theorem claimed_origins (x : Still) : (claimed x).orders.map (·.origin) = x.orders.map (·.origin) := by
  unfold claimed claimHead
  split
  · split
    · rfl
    · rename_i ho
      simp [ho]
  · rfl

theorem startFrame_planned {k : Nat} {p : FramePlan} (hr : RegionsOk s) (hw : Working s) :
    Planned s (startFrame k p s) ∧ (startFrame k p s).capture.plan = s.capture.plan := by
  have hstart := startFrame_ready (k := k) (p := p) (ready_self hr hw)
  rw [put_self] at hstart
  rw [hstart]
  refine ⟨⟨rfl, rfl, rfl, ?_⟩, rfl⟩
  change (if p.boost = true then noteBoostSeq _ s.still else s.still).orders.map _ = _
  split
  · exact noteBoostSeq_origins _ _
  · rfl

theorem deferFrom_planned (hr : RegionsOk s) (hw : Working s) :
    Planned s (deferFrom s) ∧ (deferFrom s).capture.plan = s.capture.plan := by
  rw [deferFrom_eq hr hw]
  exact ⟨⟨rfl, rfl, rfl, rfl⟩, rfl⟩

/-- A planned frame waits, has triggered, or is deferred. -/
theorem awaited_cases (p : FramePlan) (s : State) : awaited p s = waiting p s
    ∨ (∃ k, selectStore (waiting p s) = some k ∧ awaited p s = startFrame k p (waiting p s))
    ∨ awaited p s = deferFrom (waiting p s) := by
  by_cases hd : s.now < p.dueAt
  · exact .inl (awaited_early hd)
  · match hk : selectStore (waiting p s) with
    | some k => exact .inr (.inl ⟨k, rfl, awaited_found hd hk⟩)
    | none => exact .inr (.inr (awaited_deferred hd hk))

/-- The next frame, which writes in a store's header when it is triggered alone. -/
theorem nextFrame_acting (h : Reaching s) (he : ∀ e, P (.event e))
    (hs : (nextFrame s).capture.trig = .exposing → ∀ t k p, t.cfg = s.cfg → k < s.cfg.stores → ∀ a ∈ startWrites k p t, P a) :
    Acting P s (nextFrame s) ∧ Planned s (nextFrame s)
      ∧ (nextFrame s).capture.plan = some (nextPlan (boostWaiting s.still) s) := by
  let p := nextPlan (boostWaiting s.still) s
  let u := waiting p { s with still := claimed s.still }
  have hu : Reaching u := h.change
  have hact : Acting P s u := (Acting.refl h.regions h.working).change hu.working
  have hplanned : Planned s u := ⟨rfl, rfl, rfl, claimed_origins s.still⟩
  rw [nextFrame_eq] at hs ⊢
  obtain hw | ⟨k, hk, hw⟩ | hw := awaited_cases p { s with still := claimed s.still }
  · rw [hw]
    exact ⟨hact, hplanned, rfl⟩
  · rw [hw] at hs ⊢
    obtain ⟨hkeep, hplan⟩ := startFrame_planned (k := k) (p := p) hu.regions hu.working
    exact ⟨hact.trans (startFrame_acting hu.regions hu.working (hs rfl u k p rfl (selectStore_lt hk))).1, hplanned.trans hkeep, hplan⟩
  · rw [hw]
    obtain ⟨hkeep, hplan⟩ := deferFrom_planned hu.regions hu.working
    exact ⟨hact.trans (deferFrom_acting hu.regions hu.working he), hplanned.trans hkeep, hplan⟩

end

end Sys2Proof.Proofs

namespace Sys2Proof.Proofs

open Sys2Proof.Machine Sys2Proof.Safety Sys2Proof.Laws

/-! ## The abandonment of a frame (R31, R32, R162) -/

section

variable {P : Act → Prop} {s : State}

/-- The end of a HALT, as acts. -/
theorem settled_acting (hr : RegionsOk s) (hw : Working s) (he : ∀ e, P (.event e)) : Acting P s (settled s) := by
  rw [settled_eq hr hw]
  split
  · have hhalted : Ready s (halted s) :=
      ⟨hr, hw, { errors := rfl, areaBase := rfl, cfg := rfl, frames := rfl, x := rfl, working := .inr (.inr rfl) }⟩
    refine hhalted.acting fun a ha => ?_
    obtain ⟨e, -, rfl⟩ := List.mem_map.1 ha
    exact he e
  · exact .refl hr hw

/-- The capture unit takes no part in the end of a HALT. -/
theorem settled_capture (hr : RegionsOk s) (hw : Working s) : (settled s).capture = s.capture := by
  rw [settled_eq hr hw]
  split <;> rfl

theorem settled_running (hp : s.part = .running) : settled s = s := if_neg (by simp [hp])

/-- In HALTING the part is HALTED with the last of its work (R8). -/
theorem settled_halting (hr : RegionsOk s) (hw : Working s) (hp : s.part = .halting) :
    inFlight (settled s) = false ↔ (settled s).part = .halted := by
  rw [settled_eq hr hw]
  by_cases hf : inFlight s = false
  · rw [if_pos ⟨hp, hf⟩]
    have hsame := inFlight_acted (v := halted s) (acted_acts (as := events (haltedLamp s).2) hr hw)
    exact ⟨fun _ => rfl, fun _ => hsame.trans hf⟩
  · rw [if_neg fun h => hf h.2, hp]
    exact ⟨fun h => absurd h hf, fun h => by cases h⟩

/-- The report of a lost order writes an event, or answers its SNAPSHOT. -/
theorem lostOrder_acts {o : StillOrigin} {code w0 cause entry : Nat} {seq : Word} (he : ∀ e, P (.event e))
    (ha : ∀ slot ∈ o.slot?, ∀ code w0 w1, P (.answer slot code w0 w1)) : P (lostOrder o code w0 cause entry seq) := by
  cases o with
  | snapshot slot => exact ha slot rfl _ _ _
  | mark | stop => exact he _

/-- The state with these still orders left. -/
def ordersLeft (os : List StillOrder) (s : State) : State := { s with still := { s.still with orders := os } }

theorem ordersLeft_acting (hr : RegionsOk s) (hw : Working s) (os : List StillOrder) : Acting P s (ordersLeft os s) :=
  (Acting.refl hr hw).change hw

/-- One act. -/
theorem act_acting {a : Act} (hr : RegionsOk s) (hw : Working s) (ha : P a) : Acting P s (act s a) := by
  have hact := (ready_self hr hw).acting (as := [a]) fun b hb => List.mem_singleton.1 hb ▸ ha
  rwa [List.foldl_cons, List.foldl_nil, ← (acted_act hr hw).frame] at hact

theorem act_capture {a : Act} (hr : RegionsOk s) (hw : Working s) : (act s a).capture = s.capture := by
  rw [(acted_act hr hw).frame]
  rfl

/-- The still unit after the abandonment of a frame: the order that claimed a boost frame is lost (R162). -/
def lostBoost (boost : Bool) (seq : Word) (s : State) : State :=
  match boost, s.still.orders with
  | true, o :: os => if o.claimed then act (ordersLeft os s) (lostOrder o.origin 18 0 2 0xFF seq) else s
  | _, _ => s

theorem lostBoost_steady (seq : Word) (s : State) : lostBoost false seq s = s := rfl

/-- The end of an order, with its place in the queue free. -/
theorem orderFailed_act {o : StillOrder} {code w0 cause entry : Nat} {seq : Word} (hr : RegionsOk s) (hw : Working s)
    (hs : ∀ a ∈ o.origin.slot?, a + 64 ≤ 2 ^ 32) : orderFailed { o with frameSeq := seq } code w0 seq.toNat cause entry s
      = act s (lostOrder o.origin code w0 cause entry seq) := by
  have hfail := orderFailed_ready (ready_self hr hw) (o := { o with frameSeq := seq }) hs code w0 cause entry
  rw [put_self] at hfail
  exact hfail.trans (acted_act hr hw).frame.symm

theorem boostLost_eq {boost : Bool} {seq : Word} (hr : RegionsOk s) (hw : Working s)
    (hs : ∀ o ∈ s.still.orders.head?, ∀ a ∈ o.origin.slot?, a + 64 ≤ 2 ^ 32) :
    (if boost then boostLost seq s else s) = lostBoost boost seq s := by
  cases boost with
  | false => rfl
  | true =>
    unfold lostBoost boostLost
    match ho : s.still.orders with
    | [] => rfl
    | o :: os =>
      have htail : dropHeadOrder s = ordersLeft os s := by rw [dropHeadOrder, ho]; rfl
      rw [htail]
      simp only [if_true]
      split
      · exact orderFailed_act (ordersLeft_acting (P := anyAct) hr hw os).regionsOk hw (hs o (by rw [ho]; rfl))
      · rfl

/-- The loss of an order, as acts. -/
theorem lostBoost_acting {boost : Bool} {seq : Word} (hr : RegionsOk s) (hw : Working s) (he : ∀ e, P (.event e))
    (ha : boost = true → ∀ o ∈ s.still.orders.head?, ∀ slot ∈ o.origin.slot?, ∀ code w0 w1, P (.answer slot code w0 w1)) :
    Acting P s (lostBoost boost seq s) ∧ (lostBoost boost seq s).capture = s.capture
      ∧ (lostBoost boost seq s).part = s.part := by
  unfold lostBoost
  split
  · rename_i o os ho
    split
    · have hleft := ordersLeft_acting (P := P) hr hw os
      have hact := act_acting (a := lostOrder o.origin 18 0 2 0xFF seq) hleft.regionsOk hw
        (lostOrder_acts he (ha rfl o (by rw [ho]; rfl)))
      exact ⟨hleft.trans hact, act_capture hleft.regionsOk hw, (acted_act hleft.regionsOk hw).part⟩
    · exact ⟨.refl hr hw, rfl, rfl⟩
  · exact ⟨.refl hr hw, rfl, rfl⟩

end

/-! ### The next frame in RUNNING, none in HALTING -/

section

variable {P : Act → Prop} {s t : State}

theorem Planned.refl (s : State) : Planned s s := ⟨rfl, rfl, rfl, rfl⟩

theorem Planned.part (h : Planned s t) : t.part = s.part := by
  rw [h.frame]
  rfl

/-- The head order is the one it was. -/
theorem Planned.head (h : Planned s t) {o : StillOrder} (ho : o ∈ t.still.orders.head?) :
    ∃ o' ∈ s.still.orders.head?, o'.origin = o.origin := by
  have hmap := congrArg List.head? h.origins
  rw [List.head?_map, List.head?_map, Option.mem_def.1 ho] at hmap
  obtain ⟨o', ho', heq⟩ := Option.map_eq_some_iff.1 hmap.symm
  exact ⟨o', ho', heq⟩

theorem plannedOn_acting (hr : RegionsOk s) (hw : Working s) (he : ∀ e, P (.event e))
    (hs : (plannedOn s).capture.trig = .exposing → s.part = .running →
      ∀ t k p, t.cfg = s.cfg → k < s.cfg.stores → ∀ a ∈ startWrites k p t, P a) :
    Acting P s (plannedOn s) ∧ Planned s (plannedOn s) := by
  by_cases hp : s.part = .running
  · have hplan : plannedOn s = nextFrame s := if_pos hp
    rw [hplan] at hs ⊢
    obtain ⟨hact, hplanned, -⟩ := nextFrame_acting ⟨hp, hr⟩ he fun ht => hs ht hp
    exact ⟨hact, hplanned⟩
  · have hplan : plannedOn s = s := if_neg hp
    rw [hplan]
    exact ⟨.refl hr hw, .refl s⟩

end

/-! ### The abandonment itself -/

/-- The abandonment is the third in a row (R32). -/
def opensLos (s : State) : Bool := decide (min 255 (s.capture.abandons + 1) = 3 ∧ s.capture.los = false)

/-- SENSOR_LOS at the third abandonment in a row (R32). -/
def losActs (seq : Word) (s : State) : List Act := if opensLos s then [.event (Event.sensorLos seq)] else []

/-- The counters after an abandonment (R31, R32). -/
def counted (s : State) : State :=
  { s with capture := { s.capture with
      deadline := none, abandoned := s.capture.abandoned + 1, abandons := min 255 (s.capture.abandons + 1)
      los := s.capture.los || opensLos s } }

theorem countAbandon_ready {w v : State} (h : Ready w v) (seq : Word) :
    countAbandon seq (put w v) = put ((losActs seq v).foldl act w) (counted v) := by
  by_cases hl : min 255 (v.capture.abandons + 1) = 3 ∧ v.capture.los = false
  · have hopen : opensLos v = true := decide_eq_true hl
    have hemit := emit_ready (v := counted v) (h.change (u := counted v)) (Event.sensorLos seq)
    have hstate : countAbandon seq (put w v) = emit (Event.sensorLos seq) (put w (counted v)) := by
      refine (if_pos hl).trans ?_
      rw [counted, hopen, Bool.or_true]
      rfl
    rw [hstate, hemit, losActs, hopen]
    rfl
  · have hopen : opensLos v = false := decide_eq_false hl
    refine (if_neg hl).trans ?_
    rw [losActs, counted, hopen, Bool.or_false]
    rfl

/-- The store of the abandoned frame is VOID (R31). -/
def voided (k : Nat) (s : State) : State := updateStore k (fun e => { e with state := .void }) s

/-- The state once an abandonment has been counted, the frame and its plan gone; `line` is stored before. -/
def abandoned (f : Frame) (s : State) : State := idled (counted (voided f.store s))

/-- What an abandonment writes before the next frame (R31, R32). -/
def abandonActs (f : Frame) (s : State) : List Act := .store (storeBase s.cfg f.store) [0] :: losActs f.seq s

/-- An abandonment: the store, the counters, the next frame, the claimed order, the end of a HALT. -/
theorem abandonFrame_eq {w v : State} {f : Frame} {boost : Bool} (h : Ready w v) (hb : v.workBase = w.workBase)
    (hk : storeBase v.cfg f.store + 64 ≤ 2 ^ 32)
    (hs : ∀ o ∈ v.still.orders.head?, ∀ a ∈ o.origin.slot?, a + 64 ≤ 2 ^ 32) :
    abandonFrame f boost (put w v)
      = settled (lostBoost boost f.seq (plannedOn (put ((abandonActs f v).foldl act w) (abandoned f v)))) := by
  have hstore : Ready (act w (.store (storeBase v.cfg f.store) [0])) (voided f.store v) := (h.act _).change
  have hcount := countAbandon_ready hstore f.seq
  have hready : Ready ((abandonActs f v).foldl act w) (counted (voided f.store v)) := (hstore.acts (losActs f.seq v)).change
  have hvoid : Acting anyAct w (put ((abandonActs f v).foldl act w) (abandoned f v)) :=
    (h.change (u := abandoned f v)).acting (fun _ _ => trivial) hb
  obtain ⟨hplan, hplanned⟩ := plannedOn_acting (P := anyAct) hvoid.regionsOk hvoid.target_working (fun _ => trivial)
    fun _ _ _ _ _ _ _ _ _ => trivial
  have hheads : ∀ o ∈ (plannedOn (put ((abandonActs f v).foldl act w) (abandoned f v))).still.orders.head?,
      ∀ a ∈ o.origin.slot?, a + 64 ≤ 2 ^ 32 := fun o ho a ha => by
    obtain ⟨o', ho', heq⟩ := hplanned.head ho
    exact hs o' ho' a (heq ▸ ha)
  obtain ⟨hlost, -, -⟩ := lostBoost_acting (P := anyAct) (boost := boost) (seq := f.seq) hplan.regionsOk hplan.target_working
    (fun _ => trivial) fun _ _ _ _ _ _ _ _ => trivial
  have hcounted : Acting anyAct w (put ((abandonActs f v).foldl act w) (counted (voided f.store v))) :=
    (h.change (u := counted (voided f.store v))).acting (fun _ _ => trivial) hb
  have hnext : planNext (put ((abandonActs f v).foldl act w) (counted (voided f.store v)))
      = plannedOn (put ((abandonActs f v).foldl act w) (abandoned f v)) := planNext_eq hcounted.regionsOk
  refine (onward_write h (bs := [0]) (show storeBase v.cfg f.store + 1 ≤ 2 ^ 32 by omega) _).trans ?_
  refine (congrArg (onward · _) hcount).trans ((onward_ready hready _).trans ?_)
  refine (congrArg (onward · _) hnext).trans ((onward_of_ne (ne_faulted_of_working hplan.target_working)).trans ?_)
  rw [boostLost_eq hplan.regionsOk hplan.target_working hheads, onward_of_ne (ne_faulted_of_working hlost.target_working)]
  exact settleHalt_settled hlost.regionsOk hlost.target_working

/-- The state after an abandonment, from the one that its writes left (R31, R162). -/
def afterAbandon (f : Frame) (boost : Bool) (s : State) : State := settled (lostBoost boost f.seq (plannedOn s))

theorem afterAbandon_acting {P : Act → Prop} {s : State} {f : Frame} {boost : Bool} (hr : RegionsOk s) (hw : Working s)
    (he : ∀ e, P (.event e))
    (hs : (afterAbandon f boost s).capture.trig = .exposing → s.part = .running →
      ∀ t k p, t.cfg = s.cfg → k < s.cfg.stores → ∀ a ∈ startWrites k p t, P a)
    (ha : boost = true → ∀ o ∈ s.still.orders.head?, ∀ slot ∈ o.origin.slot?, ∀ code w0 w1, P (.answer slot code w0 w1)) :
    Acting P s (afterAbandon f boost s) ∧ (afterAbandon f boost s).capture = (plannedOn s).capture
      ∧ (afterAbandon f boost s).capture.los = s.capture.los
      ∧ (s.part = .halting → (inFlight (afterAbandon f boost s) = false ↔ (afterAbandon f boost s).part = .halted)) := by
  have hany := plannedOn_acting (P := anyAct) hr hw (fun _ => trivial) fun _ _ _ _ _ _ _ _ _ => trivial
  have hlany := lostBoost_acting (P := anyAct) (boost := boost) (seq := f.seq) hany.1.regionsOk hany.1.target_working
    (fun _ => trivial) fun _ _ _ _ _ _ _ _ => trivial
  have hcapture : (afterAbandon f boost s).capture = (plannedOn s).capture :=
    (settled_capture hlany.1.regionsOk hlany.1.target_working).trans hlany.2.1
  rw [hcapture] at hs
  obtain ⟨hplan, hplanned⟩ := plannedOn_acting hr hw he hs
  obtain ⟨hlost, -, hpart⟩ := lostBoost_acting (boost := boost) (seq := f.seq) hplan.regionsOk hplan.target_working he
    fun hb o ho slot hslot code w0 w1 => by
      obtain ⟨o', ho', heq⟩ := hplanned.head ho
      exact ha hb o' ho' slot (heq ▸ hslot) code w0 w1
  refine ⟨(hplan.trans hlost).trans (settled_acting hlost.regionsOk hlost.target_working he), hcapture,
    (congrArg Capture.los hcapture).trans hplanned.los, fun hp => ?_⟩
  exact settled_halting hlost.regionsOk hlost.target_working (hpart.trans (hplanned.part.trans hp))

/-! ### What an abandonment leaves -/

theorem losActs_event {P : Act → Prop} {seq : Word} {s : State} (he : ∀ e, P (.event e)) : ∀ a ∈ losActs seq s, P a := by
  intro a ha
  unfold losActs at ha
  split at ha
  · rw [List.mem_singleton.1 ha]
    exact he _
  · cases ha

/-- The store reads VOID. -/
theorem read_abandoned {w s : State} {f : Frame} (hr : RegionsOk w) (hw : Working w) (hc : w.cfg = s.cfg)
    (ha : Apart (storeHeader s f.store) (eventList s)) :
    Memory.read ((abandonActs f s).foldl act w).mem (storeBase s.cfg f.store) = 0 := by
  have hstore := acted_act (a := .store (storeBase s.cfg f.store) [0]) hr hw
  have hrest : Acting (Within [eventList s] s) _ _ := (ready_self (hstore.regionsOk hr) (hstore.working hw)).acting
    (losActs_event (seq := f.seq) (s := s) fun e => within_event e (List.mem_singleton_self _))
  rw [← within_cfg (t := act w (.store (storeBase s.cfg f.store) [0])) (by rw [hstore.frame]; exact hc)] at hrest
  have hsame := hrest.sameOutside (storeBase s.cfg f.store) fun r hr => by
    rw [List.mem_singleton.1 hr]
    exact ha _ ⟨Nat.le_refl _, by simp [storeHeader]⟩
  exact hsame.trans (read_storeBytes_inside (i := 0) hr.1 (by simp))

theorem reported_abandoned {w s : State} {f : Frame} (hr : RegionsOk w) (hw : Working w) (h : opensLos s = true) :
    Reported 12 ((abandonActs f s).foldl act w) := by
  have hstore := acted_act (a := .store (storeBase s.cfg f.store) [0]) hr hw
  have hacts : abandonActs f s = [.store (storeBase s.cfg f.store) [0], .event (Event.sensorLos f.seq)] := by
    rw [abandonActs, losActs, if_pos h]
  rw [hacts]
  exact emit_reported (e := Event.sensorLos f.seq) (hstore.regionsOk hr) (hstore.working hw) (by change 12 < 24; decide)

/-- The whole pixels of a short line (R28). -/
theorem lineStored_short {s : State} {f : Frame} {bytes : List Byte} (h : bytes.length / 2 < s.cfg.width) :
    let kept := bytes.take (2 * (bytes.length / 2))
    lineStored s f bytes =
      if s.cfg.burnIn then kept.mapIdx fun i b => burnByte s.cfg s.overlay f.burnText f.lines i b else kept := by
  have hpx : linePixels s.cfg bytes = bytes.length / 2 := Nat.min_eq_right (Nat.le_of_lt h)
  rw [lineStored, hpx]
  rfl

/-- A trigger start in a state with this configuration. -/
theorem startWrites_within_cfg {rs : List (Nat × Nat)} {s t : State} {k : Nat} {p : FramePlan} (hc : t.cfg = s.cfg)
    (hh : storeHeader s k ∈ rs) (he : eventList s ∈ rs) : ∀ a ∈ startWrites k p t, Within rs s a := by
  have hheader : storeHeader t k = storeHeader s k := by rw [storeHeader, storeHeader, hc]
  have hlist : eventList t = eventList s := by rw [eventList, eventList, hc]
  rw [← within_cfg hc]
  exact startWrites_within p (hheader ▸ hh) (hlist ▸ he)

/-! ### The commands -/

theorem exec_captureDeadlineExpiry {s : State} {d : Nat} {f : Frame} {boost : Bool} (hd : s.capture.deadline = some d)
    (h : frameInReadout s = some (f, boost)) : exec .captureDeadlineExpiry s
      = .next (if f.lines < s.cfg.height then abandonFrame f boost (advance d s) else s) := by
  change execCaptureDeadlineExpiry s = _
  rw [execCaptureDeadlineExpiry, hd, h]

theorem exec_sensorLos {s : State} {m : Nat} {f : Frame} {boost : Bool} (h : frameInReadout s = some (f, boost)) :
    exec (.sensorLos m) s = .next (if s.capture.abandons = 2 ∧ s.capture.los = false ∧ f.lines < s.cfg.height then
      abandonFrame f boost (advance m s) else advance m s) := by
  have h' : frameInReadout (advance m s) = some (f, boost) := h
  change execSensorLos m s = _
  simp only [execSensorLos, h']
  rfl

/-- What an abandonment with this line writes before the next frame. -/
def voidWritesOf (f : Frame) (line : List (Nat × List Byte)) (s : State) : List Act :=
  line.map (fun w => .store w.1 w.2) ++ abandonActs f s

/-- The state it leaves before the next frame. -/
def voidedAt (f : Frame) (m : Nat) (line : List (Nat × List Byte)) (s : State) : State :=
  put ((voidWritesOf f line s).foldl act s) (abandoned f (advance m s))

/-- The slot of the order that claimed a boost frame. -/
def boostSlots (boost : Bool) (s : State) : List (Nat × Nat) :=
  if boost then s.still.orders.head?.toList.filterMap fun o => o.origin.slot?.map slotHead else []

/-- The bytes that an abandonment can write. -/
def abandonRanges (boost : Bool) (line : List (Nat × List Byte)) (s : State) : List (Nat × Nat) :=
  eventList s :: (List.range s.cfg.stores).map (storeHeader s) ++ boostSlots boost s ++ line.map fun w => (w.1, w.2.length)

theorem mem_boostSlots {boost : Bool} {s : State} (hb : boost = true) {o : StillOrder} (ho : o ∈ s.still.orders.head?)
    {slot : Nat} (hs : slot ∈ o.origin.slot?) : slotHead slot ∈ boostSlots boost s := by
  rw [boostSlots, if_pos hb, List.mem_filterMap]
  exact ⟨o, Option.mem_toList.2 ho, by rw [Option.mem_def.1 hs]; rfl⟩

section

variable {P : Act → Prop} {f : Frame} {s : State} {m : Nat} {line : List (Nat × List Byte)} (hr : RegionsOk s) (hw : Working s)
include hr hw

theorem voidedAt_eq {third : Prop} [Decidable third]
    (ht : third ↔ min 255 (s.capture.abandons + 1) = 3 ∧ s.capture.los = false) :
    ({ (line.map (fun w : Nat × List Byte => Act.store w.1 w.2) ++ [Act.store (storeBase s.cfg f.store) [0]]
          ++ if third then [Act.event (Event.sensorLos f.seq)] else []).foldl act s with
        now := max s.now m, ring := s.ring.set f.store { storeAt s f.store with state := .void }
        capture := { s.capture with
          trig := .idle, plan := none, frame := none, deadline := none, abandoned := s.capture.abandoned + 1
          abandons := min 255 (s.capture.abandons + 1), los := s.capture.los || decide third } } : State)
      = voidedAt f m line s := by
  have hlos : decide third = opensLos s := decide_eq_decide.2 ht
  have hwrites : line.map (fun w => Act.store w.1 w.2) ++ [.store (storeBase s.cfg f.store) [0]]
      ++ (if third then [Act.event (Event.sensorLos f.seq)] else []) = voidWritesOf f line s := by
    rw [List.append_assoc, voidWritesOf, abandonActs, losActs, ← hlos]
    simp only [decide_eq_true_eq]
    rfl
  have hring : (abandoned f (advance m s)).ring = s.ring.set f.store { storeAt s f.store with state := .void } :=
    updateAt_getD ..
  have hframe := (acted_acts (as := voidWritesOf f line s) hr hw).frame
  rw [hwrites, hlos, ← hring, voidedAt]
  generalize (voidWritesOf f line s).foldl act s = w at hframe ⊢
  rw [hframe]
  rfl

theorem voidedAt_acting (hl : ∀ x ∈ line, P (.store x.1 x.2)) (hs : P (.store (storeBase s.cfg f.store) [0]))
    (he : ∀ e, P (.event e)) : Acting P s (voidedAt f m line s) := by
  refine ((ready_self hr hw).change (u := abandoned f (advance m s))).acting fun a ha => ?_
  simp only [voidWritesOf, abandonActs, List.mem_append, List.mem_map, List.mem_cons] at ha
  obtain ⟨x, hx, rfl⟩ | rfl | ha := ha
  · exact hl x hx
  · exact hs
  · exact losActs_event he a ha

theorem line_acted : Acted s ((line.map fun w => Act.store w.1 w.2).foldl act s) := acted_acts hr hw

theorem read_voidedAt (ha : Apart (storeHeader s f.store) (eventList s)) :
    Memory.read (voidedAt f m line s).mem (storeBase s.cfg f.store) = 0 := by
  have hline := line_acted (line := line) hr hw
  have hread := read_abandoned (f := f) (s := s) (hline.regionsOk hr) (hline.working hw) (by rw [hline.frame]; rfl) ha
  rwa [← List.foldl_append] at hread

theorem reported_voidedAt (h : opensLos s = true) : Reported 12 (voidedAt f m line s) := by
  have hline := line_acted (line := line) hr hw
  have hrep := reported_abandoned (f := f) (hline.regionsOk hr) (hline.working hw) h
  rwa [← List.foldl_append] at hrep

/-- An abandonment with its line, as one next state. -/
theorem abandonFrame_voidedAt {boost : Bool} (hk : f.store < s.cfg.stores)
    (hs : ∀ o ∈ s.still.orders.head?, ∀ a ∈ o.origin.slot?, a + 64 ≤ 2 ^ 32) :
    abandonFrame f boost (put ((line.map fun w => Act.store w.1 w.2).foldl act s) (advance m s))
      = afterAbandon f boost (voidedAt f m line s) := by
  have hready : Ready ((line.map fun w => Act.store w.1 w.2).foldl act s) (advance m s) :=
    ((ready_self hr hw).acts _).change
  have hbase : s.workBase = ((line.map fun w => Act.store w.1 w.2).foldl act s).workBase := by
    rw [(line_acted hr hw).frame]
    rfl
  have heq := abandonFrame_eq (f := f) (boost := boost) hready hbase (storeHeader_le hr hk) hs
  rw [← List.foldl_append] at heq
  exact heq

/-- Where no frame is triggered the store stays VOID: the rest is events and the answer to a lost SNAPSHOT. -/
theorem read_afterAbandon {boost : Bool} (ht : (afterAbandon f boost (voidedAt f m line s)).capture.trig ≠ .exposing)
    (ha : Apart (storeHeader s f.store) (eventList s)) (hs : ∀ r ∈ boostSlots boost s, Apart (storeHeader s f.store) r) :
    Memory.read (afterAbandon f boost (voidedAt f m line s)).mem (storeBase s.cfg f.store) = 0 := by
  have hacting := voidedAt_acting (P := anyAct) (f := f) (m := m) (line := line) hr hw (fun _ _ => trivial) trivial fun _ => trivial
  obtain ⟨hquiet, -⟩ := afterAbandon_acting (P := Within (eventList s :: boostSlots boost s) (voidedAt f m line s)) (f := f)
    (boost := boost) hacting.regionsOk hacting.target_working (fun e => within_event e List.mem_cons_self)
    (fun h => absurd h ht) fun hb o ho slot hs _ _ _ =>
      within_answer _ _ _ (List.mem_cons_of_mem _ (mem_boostSlots hb ho hs))
  have hbase : InRange (storeHeader s f.store) (storeBase s.cfg f.store) :=
    ⟨Nat.le_refl _, Nat.lt_add_of_pos_right (show 0 < 64 by decide)⟩
  refine (hquiet.sameOutside _ fun r hm => ?_).trans (read_voidedAt hr hw ha)
  obtain rfl | hm := List.mem_cons.1 hm
  · exact ha _ hbase
  · exact hs r hm _ hbase

/-- An abandonment writes its line, the event list, headers of stores and the slot of a lost SNAPSHOT. -/
theorem afterAbandon_within {boost : Bool} (hk : f.store < s.cfg.stores) :
    Acting (Within (abandonRanges boost line s) s) s (afterAbandon f boost (voidedAt f m line s)) := by
  have hevents : eventList s ∈ abandonRanges boost line s := by simp [abandonRanges]
  have hheader : ∀ k < s.cfg.stores, storeHeader s k ∈ abandonRanges boost line s := fun k hk => by
    simp only [abandonRanges, List.cons_append, List.mem_cons, List.mem_append, List.mem_map, List.mem_range]
    exact .inr (.inl (.inl ⟨k, hk, rfl⟩))
  have hline : ∀ x ∈ line, (x.1, x.2.length) ∈ abandonRanges boost line s := fun x hx =>
    List.mem_append_right _ (List.mem_map.2 ⟨x, hx, rfl⟩)
  have hslot : ∀ r ∈ boostSlots boost s, r ∈ abandonRanges boost line s := fun r hm =>
    List.mem_append_left _ (List.mem_append_right _ hm)
  have hbefore := voidedAt_acting (P := Within (abandonRanges boost line s) s) (f := f) (m := m) hr hw
    (fun x hx => within_store (hline x hx) (Nat.le_refl _) (Nat.le_refl _))
    (within_store (hheader f.store hk) (Nat.le_refl _) (Nat.add_le_add_left (by decide : 1 ≤ 64) _))
    fun e => within_event e hevents
  obtain ⟨hnext, -⟩ := afterAbandon_acting (f := f) (boost := boost) hbefore.regionsOk hbefore.target_working
    (fun e => within_event e hevents) (fun _ _ t k q hc hk => startWrites_within_cfg hc (hheader k hk) hevents)
    fun hb o ho slot hs _ _ _ => within_answer _ _ _ (hslot _ (mem_boostSlots hb ho hs))
  exact hbefore.trans hnext

end

/-- Settles O37: every way to abandon a frame stores its line and goes on alike. -/
theorem abandonmentVoidsStore : Obligations.AbandonmentVoidsStore := by
  intro f p s htrig hframe hplan hlines hk hring hpart hr hheld hslots third slots Abandons
  have hw : Working s := hpart.elim .inl fun h => .inr (.inl h)
  have hread := frameInReadout_some htrig hframe hplan
  have hheads : ∀ o ∈ s.still.orders.head?, ∀ a ∈ o.origin.slot?, a + 64 ≤ 2 ^ 32 := fun o ho a ha =>
    hslots o a ho (slot?_eq_some.1 ha)
  have key : ∀ c m (line : List (Nat × List Byte)), exec c s = .next (abandonFrame f p.boost
      (put ((line.map fun w => Act.store w.1 w.2).foldl act s) (advance m s))) → Abandons c (max s.now m) line := by
    intro c m line hexec
    rw [abandonFrame_voidedAt hr hw hk hheads] at hexec
    have hvoid := voidedAt_eq (f := f) (m := m) (line := line) hr hw (third := third) Iff.rfl
    have hacting := voidedAt_acting (P := anyAct) (f := f) (m := m) (line := line) hr hw (fun _ _ => trivial) trivial fun _ => trivial
    obtain ⟨hafter, hcapture, hlos, hhalting⟩ := afterAbandon_acting (P := anyAct) (f := f) (boost := p.boost) hacting.regionsOk
      hacting.target_working (fun _ => trivial) (fun _ _ _ _ _ _ _ _ _ => trivial) fun _ _ _ _ _ _ _ _ => trivial
    refine ⟨_, hexec, ?_, fun ht => ⟨?_, ?_⟩, fun hp => ⟨?_, hhalting hp⟩, fun hno hap haps => ?_, ?_, ?_⟩
    · rw [hvoid]
      rfl
    · have hopen : opensLos s = true := decide_eq_true ht
      rw [hlos, voidedAt, abandoned, idled, counted]
      exact Bool.or_eq_true_iff.2 (.inr hopen)
    · exact hafter.reported (reported_voidedAt hr hw (decide_eq_true ht))
    · have hstays : plannedOn (voidedAt f m line s) = voidedAt f m line s :=
        if_neg fun h => by cases hp.symm.trans h
      rw [hcapture, hstays]
      rfl
    · exact read_afterAbandon hr hw hno hap haps
    · exact (afterAbandon_within hr hw hk).sameOutside
    · exact (hacting.trans hafter).list_eq
  refine ⟨fun m hpic => key _ _ _ ?_, fun d hd => key _ _ _ ?_, fun m ha hl => key _ _ _ ?_, fun m bytes hpic hshort => key _ _ _ ?_,
    fun hpic m bytes => (exec_outside_picture hframe (.inl hpic)).symm⟩
  · rw [exec_frameValidFall hread, if_pos ⟨hpic, hlines⟩]
    rfl
  · rw [exec_captureDeadlineExpiry hd hread, if_pos hlines]
    rfl
  · rw [exec_sensorLos hread, if_pos ⟨ha, hl, hlines⟩]
    rfl
  · have hready : Ready s (advance m s) := (ready_self hr hw).change
    have hpx : linePixels s.cfg bytes < s.cfg.width := Nat.lt_of_le_of_lt (Nat.min_le_right _ _) hshort
    rw [exec_pixelLine hread, if_pos ⟨hpic, hlines⟩, ← lineStored_short (f := f) hshort]
    exact congrArg Host.Outcome.next ((takeLine_ready hready (lineStore_le hr hk hlines)).trans (if_pos hpx))

end Sys2Proof.Proofs

namespace Sys2Proof.Proofs

open Sys2Proof.Machine Sys2Proof.Safety Sys2Proof.Laws

/-! ## The completion report and the search for work that follows it (R96, R150) -/

/-- The head bus unit looked for work: by acts that satisfy `P`, with its own blocks and the last report unchanged. -/
structure Looked (P : Act → Prop) (s t : State) : Prop where
  acting : Acting P s t
  frame : t = put t { s with lamp := t.lamp, exposure := t.exposure, bus := t.bus }
  last : t.exposure.last = s.exposure.last

section

variable {P : Act → Prop} {s t u : State}

theorem Looked.refl (hr : RegionsOk s) (hw : Working s) : Looked P s s := ⟨.refl hr hw, rfl, rfl⟩

theorem Looked.trans (h : Looked P s t) (h' : Looked P t u) : Looked P s u where
  acting := h.acting.trans h'.acting
  frame := by
    have h1 := h.frame
    have h2 := h'.frame
    generalize t.lamp = l at h1
    generalize t.exposure = e at h1
    generalize t.bus = b at h1
    rw [h1] at h2
    exact h2
  last := h'.last.trans h.last

/-- A change of the lamp unit, the gain path and the head bus. -/
theorem looked_change (hr : RegionsOk s) (hw : Working s)
    (hf : t = put s { s with lamp := t.lamp, exposure := t.exposure, bus := t.bus } := by rfl)
    (hl : t.exposure.last = s.exposure.last := by rfl) : Looked P s t where
  acting := by
    rw [hf]
    exact (Acting.refl hr hw).change hw
  frame := by
    rw [hf]
    rfl
  last := hl

/-- Acts of the head bus unit. -/
theorem looked_acts (hr : RegionsOk s) (hw : Working s) {as : List Act} (hP : ∀ a ∈ as, P a) : Looked P s (as.foldl act s) := by
  have hact := (ready_self hr hw).acting hP
  have hframe := (acted_acts (as := as) hr hw).frame
  rw [← hframe] at hact
  exact ⟨hact, by rw [hframe]; rfl, by rw [hframe]; rfl⟩

theorem Looked.acts (h : Looked P s t) {as : List Act} (hP : ∀ a ∈ as, P a) : Looked P s (as.foldl act t) :=
  h.trans (looked_acts h.acting.regionsOk h.acting.target_working hP)

theorem Looked.change (h : Looked P s t)
    (hf : u = put t { t with lamp := u.lamp, exposure := u.exposure, bus := u.bus } := by rfl)
    (hl : u.exposure.last = t.exposure.last := by rfl) : Looked P s u :=
  h.trans (looked_change h.acting.regionsOk h.acting.target_working hf hl)

/-- The unit in IDLE takes a transaction into hand, and writes nothing. -/
theorem takesWork_looked (hr : RegionsOk s) (hw : Working s) : Looked P s (takesWork s) := by
  match hg : s.bus.pendingGain, hj : dueEntries s, hq : s.bus.queue with
  | some g, _, _ => rw [takesWork_gain hg]; exact looked_change hr hw
  | none, j :: js, _ => rw [takesWork_poll hg hj]; exact looked_change hr hw
  | none, [], x :: xs => rw [takesWork_host hg hj hq]; exact looked_change hr hw
  | none, [], [] => rw [takesWork_none hg hj hq]; exact .refl hr hw

theorem gainDrained_looked {g : Nat} (h : Looked anyAct s t) : Looked anyAct s (gainDrained g t) := by
  rw [gainDrained, failedGain_eq]
  exact Looked.acts (t := { t with exposure := writeFailed (writing g t.exposure), bus := { t.bus with pendingGain := none } })
    h.change fun _ _ => trivial

theorem pollDrained_looked {j : Nat} (h : Looked anyAct s t) : Looked anyAct s (pollDrained j t) := by
  rw [pollDrained, failedPoll_eq]
  exact Looked.acts (t := missedPoll j (dueTaken j t)) h.change fun _ _ => trivial

theorem pollsDrained_looked : ∀ {js : List Nat} {t : State}, Looked anyAct s t →
    Looked anyAct s (js.foldl (fun u j => pollDrained j u) t)
  | [], _, h => h
  | _ :: js, _, h => pollsDrained_looked (js := js) (pollDrained_looked h)

theorem hostsDrained_looked {q : List HostTransfer} (h : Looked anyAct s t) : Looked anyAct s (hostsDrained q t) := by
  rw [hostsDrained_eq]
  exact Looked.acts (t := { t with bus := { t.bus with queue := [] } }) h.change fun _ _ => trivial

/-- The unit in FAULT ends everything that waits (R147). -/
theorem drained_looked (hr : RegionsOk s) (hw : Working s) : Looked anyAct s (drained s) := by
  have hrested : Looked anyAct s (rested s) := looked_change hr hw
  match hg : s.bus.pendingGain with
  | some g =>
    rw [drained_gain hg]
    exact hostsDrained_looked (pollsDrained_looked (gainDrained_looked hrested))
  | none =>
    by_cases hwait : dueEntries s = [] ∧ s.bus.queue = []
    · rw [drained_none hg hwait.1 hwait.2]
      exact .refl hr hw
    · rw [drained_rest hg hwait]
      exact hostsDrained_looked (pollsDrained_looked hrested)

theorem served_looked (hr : RegionsOk s) (hw : Working s) : Looked anyAct s (served s) := by
  unfold served
  split
  · split
    · exact takesWork_looked hr hw
    · split
      · exact drained_looked hr hw
      · exact .refl hr hw
  · exact .refl hr hw

/-- A unit that is not in FAULT writes nothing. -/
theorem served_quiet (hr : RegionsOk s) (hw : Working s) (hb : s.bus.state ≠ .fault) : Looked P s (served s) := by
  simp only [served, if_neg hb]
  split
  · split
    · exact takesWork_looked hr hw
    · exact .refl hr hw
  · exact .refl hr hw

/-! ### The report -/

/-- A gain handed changes the exposure unit and the pending gain update alone (R101). -/
theorem handGain_pending (s : State) : ∃ e g,
    handGain s = { s with exposure := e, bus := { s.bus with pendingGain := g } } ∧ e.last = s.exposure.last := by
  by_cases hp : s.part ≠ .running
  · exact ⟨s.exposure, s.bus.pendingGain, by simp [handGain, hp], rfl⟩
  · simp only [handGain, if_neg hp]
    split <;> repeat' split
    all_goals exact ⟨_, _, rfl, rfl⟩

/-- A run of the loop hands its gain, and the retry flag is cleared (R100). -/
theorem handGain_run {r : Report} {x : State} (hx : ∃ e, x = { s with exposure := e } ∧ e.last = some r) : ∃ e g,
    ({ handGain x with exposure := { (handGain x).exposure with retry := false } } : State)
      = { s with exposure := e, bus := { s.bus with pendingGain := g } } ∧ e.last = some r := by
  obtain ⟨e, rfl, hl⟩ := hx
  obtain ⟨e', g, h, hl'⟩ := handGain_pending { s with exposure := e }
  rw [h]
  exact ⟨{ e' with retry := false }, g, rfl, hl'.trans hl⟩

/-- So does a completion report, which the unit stores (R96). -/
theorem exposureReport_frame (r : Report) (s : State) : ∃ e g,
    exposureReport r s = { s with exposure := e, bus := { s.bus with pendingGain := g } } ∧ e.last = some r := by
  simp only [exposureReport]
  split
  · split
    · split
      · obtain ⟨e, g, h, hl⟩ := handGain_pending { s with exposure := { s.exposure with last := some r } }
        exact ⟨e, g, h, hl⟩
      · exact ⟨_, _, rfl, rfl⟩
    · exact handGain_run ⟨_, rfl, rfl⟩
  · exact ⟨_, _, rfl, rfl⟩

/-- What a report and the search for work leave (R96, R150). -/
theorem reported_looked (r : Report) (hr : RegionsOk s) (hw : Working s) (hb : BusReachable s) :
    let t := served (exposureReport r s)
    busServe (exposureReport r s) = t ∧ t.exposure.last = some r
      ∧ t = put t { s with lamp := t.lamp, exposure := t.exposure, bus := t.bus }
      ∧ Acting anyAct s t ∧ (s.bus.state ≠ .fault → ∀ {P}, Acting P s t) := by
  obtain ⟨e, g, heq, hlast⟩ := exposureReport_frame r s
  have hact : ∀ {P}, Acting P s (exposureReport r s) := fun {P} => by
    rw [heq]
    exact (Acting.refl hr hw).change hw
  have hlooked := served_looked (hact (P := anyAct)).regionsOk (hact (P := anyAct)).target_working
  have hquiet := fun P hf => served_quiet (P := P) (hact (P := anyAct)).regionsOk (hact (P := anyAct)).target_working hf
  refine ⟨busServe_served (hact (P := anyAct)).regionsOk ?_, hlooked.last.trans ?_, ?_, hact.trans hlooked.acting,
    fun hf P => hact.trans (hquiet P ?_).acting⟩
  · rw [heq]
    exact hb
  · rw [heq]
    exact hlast
  · have hframe := hlooked.frame
    generalize served (exposureReport r s) = t at hframe ⊢
    rw [heq] at hframe
    exact hframe
  · rw [heq]
    exact hf

end

end Sys2Proof.Proofs

namespace Sys2Proof.Proofs

open Sys2Proof.Machine Sys2Proof.Safety Sys2Proof.Laws

/-! ## The still unit at the completion of a boost frame (R163, R164) -/

/-! ### The still table in memory -/

/-- The address of an entry of the still table. -/
def entryAt (area i : Nat) : Nat := area + 0x200 + 16 * i

/-- A field of four bytes in memory. -/
def wordAt (s : State) (a : Nat) : Nat := u32 (Memory.readList s.mem a 4) 0

/-- The entry is EMPTY. -/
def emptyAt (area : Nat) (s : State) (i : Nat) : Bool := decide ((Memory.read s.mem (entryAt area i)).toNat = 1)

/-- The entry can take a still of this size (R163). -/
def usableAt (area size : Nat) (s : State) (i : Nat) : Bool :=
  emptyAt area s i && decide (size ≤ wordAt s (entryAt area i + 8)) && decide (wordAt s (entryAt area i + 4) % 64 = 0)

/-- The still table as it is read at a selection. -/
def stillTable (s : State) : List Byte := recordBytes entryAssigns s.mem (s.areaBase + 0x200) 128

section Table

variable {s : State} {i : Nat}

theorem stillTable_u8 {j : Nat} (hj : j < 128) (ha : entryAssigns j = true) :
    u8 (stillTable s) j = (Memory.read s.mem (s.areaBase + 0x200 + j)).toNat := by
  simp [u8, stillTable, recordBytes, List.getD_eq_getElem?_getD, hj, ha]

/-- A field of an assigned position reads as it stands in memory. -/
theorem stillTable_u32 {o : Nat} (hi : i < 8) (ho : 4 ≤ o) (hw : o + 4 ≤ 16) :
    u32 (stillTable s) (16 * i + o) = wordAt s (entryAt s.areaBase i + o) := by
  have hbyte : ∀ k < 4, u8 (stillTable s) (16 * i + o + k) = (Memory.read s.mem (entryAt s.areaBase i + o + k)).toNat := by
    intro k hk
    rw [stillTable_u8 (by omega) (by simp only [entryAssigns, Bool.or_eq_true, decide_eq_true_eq]; omega), entryAt]
    congr 2
    omega
  have h0 : u8 (stillTable s) (16 * i + o) = _ := hbyte 0 (by decide)
  have h3 : u8 (stillTable s) (16 * i + o + 2 + 1) = _ := hbyte 3 (by decide)
  rw [u32, u16, u16, h0, hbyte 1 (by decide), hbyte 2 (by decide), h3]
  rfl

theorem entryEmpty_eq (hi : i < 8) : entryEmpty (stillTable s) i = emptyAt s.areaBase s i := by
  rw [entryEmpty, stillTable_u8 (by omega) (by simp [entryAssigns]), emptyAt, entryAt]
  rfl

theorem entryUsable_eq (hi : i < 8) :
    entryUsable s.cfg (stillTable s) i = usableAt s.areaBase (stillSize s.cfg) s i := by
  rw [entryUsable, entryEmpty_eq hi, stillTable_u32 hi (by decide) (by decide), stillTable_u32 hi (by decide) (by decide),
    usableAt]
  rfl

theorem stillTable_read (hr : RegionsOk s) (hw : Working s) :
    portReadSome entryAssigns (s.areaBase + 0x200) 128 s = some (stillTable s) := by
  obtain ⟨-, -, ha, -⟩ := id hr
  exact portReadSome_ok (portOpen_of_working hw) fun j hj _ => portOk_of_regions hr (by omega)

end Table

/-! ### The copy begins, or the selection fails -/

/-- The entry is FILLING, and the store's header at `base` is copied (R163, R164). -/
def copyActs (area base : Nat) (seq : Word) (i : Nat) (s : State) : List Act :=
  let filling := [Act.store (entryAt area i + 12) (le32 seq.toNat), .store (entryAt area i) [2]]
  filling ++ [.store (wordAt s (entryAt area i + 4)) (Memory.readList (filling.foldl act s).mem base 64)]

/-- The copy under way. -/
def copying (area k : Nat) (seq : Word) (o : StillOrder) (i : Nat) (s : State) : State :=
  { s with still := { s.still with copy := some { origin := o.origin, entry := i, buffer := wordAt s (entryAt area i + 4)
                                                  store := k, seq := seq, lines := 0 } } }

/-- The copy has begun. -/
def copyBegun (area base k : Nat) (seq : Word) (o : StillOrder) (i : Nat) (s : State) : State :=
  { (copyActs area base seq i s).foldl act s with still := (copying area k seq o i s).still }

/-- The still pin dropped (R34). -/
def unpinnedAt (k : Nat) (s : State) : State := { s with ring := s.ring.set k { storeAt s k with stillPin := false } }

/-- The report of a selection that found no entry (R163): NO_EMPTY, or CAPACITY with the entry that was looked at. -/
def refusal (area : Nat) (seq : Word) (o : StillOrder) (s : State) : Act :=
  match (List.range 8).find? (emptyAt area s) with
  | none => lostOrder o.origin 8 0 3 0xFF seq
  | some i => lostOrder o.origin 8 1 4 i seq

/-- The still unit's part for an order (R163). -/
def stilled (area base size k : Nat) (seq : Word) (o : StillOrder) (s : State) : State :=
  match (List.range 8).find? (usableAt area size s) with
  | some i => copyBegun area base k seq o i s
  | none => act (retried (unpinnedAt k s)) (refusal area seq o s)

/-- The still unit's part in the completion of a frame: the order that claimed a boost frame leaves the queue. -/
def boostServed (area base size : Nat) (boost : Bool) (k : Nat) (seq : Word) (s : State) : State :=
  match boost, s.still.orders with
  | true, o :: os => if o.claimed then stilled area base size k seq o (ordersLeft os s) else s
  | _, _ => s

section Stilled

variable {s : State} {k i : Nat} {seq : Word} {o : StillOrder}

theorem copyBegun_put {area base : Nat} (hr : RegionsOk s) (hw : Working s) : copyBegun area base k seq o i s
    = put ((copyActs area base seq i s).foldl act s) (copying area k seq o i s) := by
  have hframe := (acted_acts (as := copyActs area base seq i s) hr hw).frame
  rw [copyBegun]
  generalize (copyActs area base seq i s).foldl act s = w at hframe ⊢
  rw [hframe]
  rfl

theorem copyBegun_acting {area base : Nat} (hr : RegionsOk s) (hw : Working s) :
    Acting anyAct s (copyBegun area base k seq o i s) ∧ (copyBegun area base k seq o i s).part = s.part
      ∧ (copyBegun area base k seq o i s).capture = s.capture ∧ (copyBegun area base k seq o i s).exposure = s.exposure := by
  rw [copyBegun_put hr hw]
  have hready : Ready s (copying area k seq o i s) := (ready_self hr hw).change
  generalize copyActs area base seq i s = as
  exact ⟨hready.acting fun _ _ => trivial, rfl, rfl, rfl⟩

theorem beginCopy_eq (hr : RegionsOk s) (hw : Working s) (hk : k < s.cfg.stores) (hi : i < 8)
    (hb : wordAt s (entryAt s.areaBase i + 4) + 64 ≤ 2 ^ 32) :
    beginCopy o i k seq (stillTable s) s = copyBegun s.areaBase (storeBase s.cfg k) k seq o i s := by
  obtain ⟨-, -, ha, -⟩ := id hr
  have hready := ready_self hr hw
  have hword : u32 (stillTable s) (16 * i + 4) = wordAt s (entryAt s.areaBase i + 4) :=
    stillTable_u32 hi (by decide) (by decide)
  have hlen : (le32 seq.toNat).length = 4 := rfl
  have hfilling := (hready.act (.store (entryAt s.areaBase i + 12) (le32 seq.toNat))).act (.store (entryAt s.areaBase i) [2])
  have hread := portRead_ready hfilling (storeHeader_le hr hk)
  have hcfg (u : State) : (put u s).cfg = s.cfg := rfl
  rw [beginCopy, hword]
  refine (onward_write hready (a := entryAt s.areaBase i + 12) (by rw [hlen, entryAt]; omega) _).trans ?_
  refine (onward_write (hready.act _) (a := entryAt s.areaBase i) (bs := [2])
    (show entryAt s.areaBase i + 1 ≤ 2 ^ 32 by rw [entryAt]; omega) _).trans ?_
  simp only [hcfg, hread]
  rw [onward_write hfilling (by rw [readList_length]; exact hb), copyBegun_put hr hw, copyActs, List.foldl_append]
  simp only [List.foldl_cons, List.foldl_nil]
  generalize act (act (act s _) _) _ = w
  rfl

theorem unpinnedAt_acting {P : Act → Prop} (hr : RegionsOk s) (hw : Working s) : Acting P s (unpinnedAt k s) :=
  (Acting.refl hr hw).change hw

/-- The pin is released first, and the failure reported then (log entry 43). -/
theorem selectionFailed_eq (hr : RegionsOk s) (hw : Working s) (hs : ∀ a ∈ o.origin.slot?, a + 64 ≤ 2 ^ 32) :
    selectionFailed o k seq (stillTable s) s = act (retried (unpinnedAt k s)) (refusal s.areaBase seq o s) := by
  have hfreed := unpinnedAt_acting (P := anyAct) (k := k) hr hw
  have hring : updateStore k (fun e => { e with stillPin := false }) s = unpinnedAt k s := by
    rw [updateStore, updateAt_getD, unpinnedAt]
    rfl
  have hrelease : releaseStillPin k s = retried (unpinnedAt k s) := by
    rw [releaseStillPin, hring]
    exact reportRelease_retried hfreed.regionsOk hfreed.target_working
  have hretried := (retried_acting (P := anyAct) hfreed.regionsOk hfreed.target_working fun _ _ _ _ _ => trivial).1
  have hfind : (List.range 8).find? (entryEmpty (stillTable s)) = (List.range 8).find? (emptyAt s.areaBase s) :=
    List.find?_congr fun i hi => entryEmpty_eq (List.mem_range.1 hi)
  rw [selectionFailed, hrelease, hfind, refusal]
  cases (List.range 8).find? (emptyAt s.areaBase s) with
  | none => exact orderFailed_act hretried.regionsOk hretried.target_working hs
  | some i => exact orderFailed_act hretried.regionsOk hretried.target_working hs

/-- The completion of a boost frame, where the buffer of the selected entry can be reached (R163). -/
theorem boostDone_eq {boost : Bool} (hr : RegionsOk s) (hw : Working s) (hk : k < s.cfg.stores)
    (hs : ∀ o ∈ s.still.orders.head?, ∀ a ∈ o.origin.slot?, a + 64 ≤ 2 ^ 32)
    (hb : boost = true → ∀ i, (List.range 8).find? (usableAt s.areaBase (stillSize s.cfg) s) = some i →
      wordAt s (entryAt s.areaBase i + 4) + 64 ≤ 2 ^ 32) : (if boost then boostDone k seq s else s)
        = boostServed s.areaBase (storeBase s.cfg k) (stillSize s.cfg) boost k seq s := by
  cases boost with
  | false => rfl
  | true =>
    unfold boostServed boostDone
    match ho : s.still.orders with
    | [] => rfl
    | o :: os =>
      have hleft := ordersLeft_acting (P := anyAct) hr hw os
      have htail : dropHeadOrder s = ordersLeft os s := by rw [dropHeadOrder, ho]; rfl
      have htable : portReadSome entryAssigns ((ordersLeft os s).areaBase + 0x200) 128 (ordersLeft os s)
          = some (stillTable (ordersLeft os s)) := stillTable_read hleft.regionsOk hw
      have hfind : (List.range 8).find? (entryUsable (ordersLeft os s).cfg (stillTable (ordersLeft os s)))
          = (List.range 8).find? (usableAt s.areaBase (stillSize s.cfg) (ordersLeft os s)) :=
        List.find?_congr fun i hi => entryUsable_eq (s := ordersLeft os s) (List.mem_range.1 hi)
      rw [htail]
      simp only [if_true, htable, hfind, stilled]
      cases o.claimed with
      | false => rfl
      | true =>
        cases hsel : (List.range 8).find? (usableAt s.areaBase (stillSize s.cfg) (ordersLeft os s)) with
        | none =>
          have hslot : ∀ a ∈ o.origin.slot?, a + 64 ≤ 2 ^ 32 := hs o (by rw [ho]; rfl)
          exact selectionFailed_eq (s := ordersLeft os s) hleft.regionsOk hw hslot
        | some i =>
          have hi : i < 8 := List.mem_range.1 (List.mem_of_find?_eq_some hsel)
          exact beginCopy_eq (s := ordersLeft os s) hleft.regionsOk hw hk hi (hb rfl i hsel)

end Stilled

/-! ### What the still unit leaves -/

/-- The plan, the counters and the exposure unit stay. -/
structure Unplanned (s t : State) : Prop where
  acting : Acting anyAct s t
  part : t.part = s.part
  plan : t.capture.plan = s.capture.plan
  completed : t.capture.completed = s.capture.completed
  exposure : t.exposure = s.exposure

theorem Unplanned.refl {s : State} (hr : RegionsOk s) (hw : Working s) : Unplanned s s := ⟨.refl hr hw, rfl, rfl, rfl, rfl⟩

theorem Unplanned.trans {s t u : State} (h : Unplanned s t) (h' : Unplanned t u) : Unplanned s u :=
  ⟨h.acting.trans h'.acting, h'.part.trans h.part, h'.plan.trans h.plan, h'.completed.trans h.completed,
    h'.exposure.trans h.exposure⟩

section

variable {s : State} {k : Nat} {seq : Word}

theorem act_unplanned (hr : RegionsOk s) (hw : Working s) (a : Act) : Unplanned s (act s a) := by
  have hframe := (acted_act (a := a) hr hw).frame
  exact ⟨act_acting hr hw trivial, by rw [hframe]; rfl, by rw [hframe]; rfl, by rw [hframe]; rfl, by rw [hframe]; rfl⟩

theorem retried_unplanned (hr : RegionsOk s) (hw : Working s) : Unplanned s (retried s) := by
  obtain ⟨hact, hpart⟩ := retried_acting (P := anyAct) hr hw fun _ _ _ _ _ => trivial
  obtain h | ⟨k, p, -, -, -, h⟩ := retried_cases s
  · rw [h]
    exact .refl hr hw
  · rw [h] at hact hpart ⊢
    obtain ⟨hplanned, hplan⟩ := startFrame_planned (k := k) (p := p) hr hw
    exact ⟨hact, hpart, hplan, hplanned.completed, by rw [hplanned.frame]; rfl⟩

theorem stilled_unplanned {area base size : Nat} {o : StillOrder} (hr : RegionsOk s) (hw : Working s) :
    Unplanned s (stilled area base size k seq o s) := by
  unfold stilled
  split
  · rename_i i _
    obtain ⟨hact, hpart, hcapture, hexposure⟩ :=
      copyBegun_acting (k := k) (i := i) (seq := seq) (o := o) (area := area) (base := base) hr hw
    exact ⟨hact, hpart, by rw [hcapture], by rw [hcapture], hexposure⟩
  · have hfreed : Unplanned s (unpinnedAt k s) := ⟨unpinnedAt_acting hr hw, rfl, rfl, rfl, rfl⟩
    have hretried := hfreed.trans (retried_unplanned hfreed.acting.regionsOk hfreed.acting.target_working)
    exact hretried.trans (act_unplanned hretried.acting.regionsOk hretried.acting.target_working _)

theorem boostServed_unplanned {area base size : Nat} {boost : Bool} (hr : RegionsOk s) (hw : Working s) :
    Unplanned s (boostServed area base size boost k seq s) := by
  unfold boostServed
  split
  · rename_i o os _
    split
    · have hleft : Unplanned s (ordersLeft os s) := ⟨ordersLeft_acting hr hw os, rfl, rfl, rfl, rfl⟩
      exact hleft.trans (stilled_unplanned hleft.acting.regionsOk hleft.acting.target_working)
    · exact .refl hr hw
  · exact .refl hr hw

end

end Sys2Proof.Proofs

namespace Sys2Proof.Proofs

open Sys2Proof.Machine Sys2Proof.Safety Sys2Proof.Laws

/-! ## The completion of a frame (R29, R30) -/

/-! ### What it writes -/

/-- The header of a completed frame (R29, R176). -/
def completeWrites (f : Frame) (p : FramePlan) (s : State) : List Act :=
  [.store (storeBase s.cfg f.store + 2) [headerFlags p.boost s.cfg.burnIn f.held f.saturated, byte (meterMean s.cfg f)],
    .store (storeBase s.cfg f.store + 8) (headerBody f p), .store (storeBase s.cfg f.store) [2]]

/-- A completion in LOS ends it (R32). -/
def restoredActs (seq : Word) (s : State) : List Act := if s.capture.los then [.event (Event.sensorRestored seq)] else []

/-- What a completion writes before the next frame. -/
def completionActs (f : Frame) (p : FramePlan) (s : State) : List Act := completeWrites f p s ++ restoredActs f.seq s

/-- No sensor loss (R32). -/
def restored (s : State) : State := if s.capture.los then { s with capture := { s.capture with los := false, abandons := 0 } } else s

/-- No deadline of a capture. -/
def undue (s : State) : State := { s with capture := { s.capture with deadline := none } }

/-- The entry of the ring table, and the counters (R29). -/
def tallied (f : Frame) (p : FramePlan) (s : State) : State :=
  let t := markComplete f.store p.boost (restored (undue s))
  { t with capture := { t.capture with completed := t.capture.completed + 1, abandons := 0 } }

/-- The state that a completion leaves before the next frame. -/
def completedAt (f : Frame) (p : FramePlan) (m : Nat) (s : State) : State :=
  put ((completionActs f p s).foldl act s) (idled (tallied f p (advance m s)))

section Writes

variable {f : Frame} {p : FramePlan} {w v : State}

theorem headerBody_length (hl : f.levels.length = 6) : (headerBody f p).length = 30 := by
  have hword : ∀ ls : List Nat, (ls.map le16).flatten.length = 2 * ls.length := fun ls => by
    induction ls with
    | nil => rfl
    | cons l ls ih => rw [List.map_cons, List.flatten_cons, List.length_append, ih, List.length_cons, Nat.mul_succ, Nat.add_comm]; rfl
  simp only [headerBody, List.length_append, hword, hl]
  rfl

theorem writeCompleteHeader_ready (h : Ready w v) (hk : storeBase v.cfg f.store + 64 ≤ 2 ^ 32) (hl : f.levels.length = 6) :
    writeCompleteHeader f p (put w v) = put ((completeWrites f p v).foldl act w) v := by
  have hcfg (u : State) : (put u v).cfg = v.cfg := rfl
  rw [writeCompleteHeader, hcfg, onward_write h (by simp only [List.length_cons, List.length_nil]; omega),
    onward_write (h.act _) (by rw [headerBody_length hl]; omega)]
  exact portWrite_ready ((h.act _).act _) (by simp only [List.length_cons, List.length_nil]; omega)

theorem leaveLos_ready (h : Ready w v) (seq : Word) :
    leaveLos seq (put w v) = put ((restoredActs seq v).foldl act w) (restored v) := by
  cases hl : v.capture.los with
  | true =>
    have hacts : restoredActs seq v = [.event (Event.sensorRestored seq)] := if_pos hl
    have hstate : restored v = { v with capture := { v.capture with los := false, abandons := 0 } } := if_pos hl
    rw [hacts, hstate]
    exact (if_pos hl).trans (emit_ready (v := { v with capture := { v.capture with los := false, abandons := 0 } }) h.change _)
  | false =>
    have hno : ¬ v.capture.los = true := by rw [hl]; decide
    rw [restoredActs, restored, if_neg hno, if_neg hno]
    exact if_neg hno

theorem restored_ready (h : Ready w v) : Ready w (restored v) := by
  unfold restored
  split
  · exact h.change
  · exact h

end Writes

/-! ### The state it leaves before the next frame -/

section

variable {P : Act → Prop} {f : Frame} {p : FramePlan} {m : Nat} {s : State}

theorem restored_of_los (s : State) : restored s
    = { s with capture := { s.capture with los := false, abandons := (restored s).capture.abandons } } := by
  unfold restored
  split
  · rfl
  · rename_i hl
    have hlos : s.capture.los = false := Bool.eq_false_iff.2 hl
    rw [← hlos]

theorem boostHeld_eq (x : Still) : boostHeld x = x.orders.head?.any fun o => o.claimed := by
  cases ho : x.orders <;> simp [boostHeld, ho]

/-- The rest of the state after a completion, field by field. -/
theorem idled_tallied (f : Frame) (p : FramePlan) (s : State) : idled (tallied f p s) = { s with
    ring := s.ring.set f.store { storeAt s f.store with
      state := .complete
      stillPin := (storeAt s f.store).stillPin || (p.boost && s.still.orders.head?.any fun o => o.claimed) }
    capture := { s.capture with
      trig := .idle, plan := none, frame := none, deadline := none, completed := s.capture.completed + 1
      abandons := 0, los := false } } := by
  rw [tallied, restored_of_los, markComplete, updateStore, updateAt_getD, boostHeld_eq]
  rfl

theorem idled_tallied_ready (h : Ready s s) : Ready s (idled (tallied f p (advance m s))) := by
  rw [idled_tallied]
  exact h.change

theorem completedAt_acting (hr : RegionsOk s) (hw : Working s) (hP : ∀ a ∈ completionActs f p s, P a) :
    Acting P s (completedAt f p m s) :=
  (idled_tallied_ready (ready_self hr hw)).acting hP (by rw [idled_tallied]; rfl)

/-- The completion's writes as one list with its event. -/
theorem completedAt_eq (hr : RegionsOk s) (hw : Working s) : completedAt f p m s
    = { (completionActs f p s).foldl act s with
        now := max s.now m
        ring := s.ring.set f.store { storeAt s f.store with
          state := .complete
          stillPin := (storeAt s f.store).stillPin || (p.boost && s.still.orders.head?.any fun o => o.claimed) }
        capture := { s.capture with
          trig := .idle, plan := none, frame := none, deadline := none, completed := s.capture.completed + 1
          abandons := 0, los := false } } := by
  have hframe := (acted_acts (as := completionActs f p s) hr hw).frame
  rw [completedAt, idled_tallied]
  generalize (completionActs f p s).foldl act s = w at hframe ⊢
  rw [hframe]
  rfl

theorem reported_completedAt (hr : RegionsOk s) (hw : Working s) (hl : s.capture.los = true) :
    Reported 13 (completedAt f p m s) := by
  have hwrites := acted_acts (as := completeWrites f p s) hr hw
  have hacts : completionActs f p s = completeWrites f p s ++ [.event (Event.sensorRestored f.seq)] := by
    rw [completionActs, restoredActs, if_pos hl]
  have hrep := emit_reported (e := Event.sensorRestored f.seq) (hwrites.regionsOk hr) (hwrites.working hw) (by change 13 < 24; decide)
  rw [completedAt, hacts, List.foldl_append]
  exact hrep

theorem restoredActs_event (he : ∀ e, P (.event e)) : ∀ a ∈ restoredActs f.seq s, P a := by
  intro a ha
  unfold restoredActs at ha
  split at ha
  · rw [List.mem_singleton.1 ha]
    exact he _
  · cases ha

theorem completionActs_within {rs : List (Nat × Nat)} (hl : f.levels.length = 6) (hh : storeHeader s f.store ∈ rs)
    (he : eventList s ∈ rs) : ∀ a ∈ completionActs f p s, Within rs s a := by
  intro a ha
  simp only [completionActs, completeWrites, List.cons_append, List.nil_append, List.mem_cons] at ha
  obtain rfl | rfl | rfl | ha := ha
  · exact within_store hh (Nat.le_add_right _ _) (by simp [storeHeader])
  · exact within_store hh (Nat.le_add_right _ _) (by simp [storeHeader, headerBody_length hl])
  · exact within_store hh (Nat.le_refl _) (by simp [storeHeader])
  · exact restoredActs_event (fun e => within_event e he) a ha

end

/-! ### The header in memory -/

theorem readList_take {m : List Host.Cell} : ∀ {k n a : Nat}, n ≤ k → (Memory.readList m a k).take n = Memory.readList m a n
  | _, 0, _, _ => List.take_zero
  | k + 1, n + 1, a, h => by
    rw [Memory.readList, List.take_succ_cons, readList_take (Nat.le_of_succ_le_succ h), Memory.readList]

theorem readList_drop {m : List Host.Cell} : ∀ {o k a : Nat}, (Memory.readList m a k).drop o = Memory.readList m (a + o) (k - o)
  | 0, _, _ => rfl
  | _ + 1, 0, _ => by rw [Nat.zero_sub]; rfl
  | o + 1, k + 1, a => by
    rw [Memory.readList, List.drop_succ_cons, readList_drop, Nat.add_assoc, Nat.add_comm 1 o, Nat.add_sub_add_right]

/-- The header of a completed frame, by its fields (manual section 12.6). -/
structure HeaderWritten (f : Frame) (p : FramePlan) (s : State) (m : List Host.Cell) : Prop where
  state : Memory.read m (storeBase s.cfg f.store) = 2
  flags : Memory.read m (storeBase s.cfg f.store + 2) = headerFlags p.boost s.cfg.burnIn f.held f.saturated
  mean : Memory.read m (storeBase s.cfg f.store + 3) = byte (meterMean s.cfg f)
  body : Memory.readList m (storeBase s.cfg f.store + 8) 30 = headerBody f p

section

variable {f : Frame} {p : FramePlan} {m : Nat} {s : State}

theorem completeWrites_header (hr : RegionsOk s) (hl : f.levels.length = 6) :
    HeaderWritten f p s ((completeWrites f p s).foldl act s).mem := by
  have hlen := headerBody_length (p := p) hl
  let flags := [headerFlags p.boost s.cfg.burnIn f.held f.saturated, byte (meterMean s.cfg f)]
  have hmem : ((completeWrites f p s).foldl act s).mem = storeBytes (storeBytes (storeBytes s.mem (storeBase s.cfg f.store + 2)
      flags) (storeBase s.cfg f.store + 8) (headerBody f p)) (storeBase s.cfg f.store) [2] := by
    simp only [completeWrites, List.foldl_cons, List.foldl_nil, act_store_mem]
    rfl
  have hw1 := storeBytes_wf (bs := flags) (a := storeBase s.cfg f.store + 2) hr.1
  have hw2 := storeBytes_wf (bs := headerBody f p) (a := storeBase s.cfg f.store + 8) hw1
  have hflags : ∀ i < 2, Memory.read ((completeWrites f p s).foldl act s).mem (storeBase s.cfg f.store + 2 + i) = flags.getD i 0 :=
    fun i hi => by
      rw [hmem, read_storeBytes_outside hw2 (.inr (by rw [List.length_singleton]; omega)),
        read_storeBytes_outside hw1 (.inl (by omega)), read_storeBytes_inside hr.1 hi]
  refine ⟨?_, hflags 0 (by decide), hflags 1 (by decide), ?_⟩
  · rw [hmem]
    exact read_storeBytes_inside (bs := [2]) (i := 0) hw2 (by decide)
  · rw [hmem, readList_storeBytes_apart hw2 (.inr (by rw [List.length_singleton]; omega)), ← hlen, readList_storeBytes_same hw1]

/-- Writes outside the header leave it. -/
theorem HeaderWritten.sameOutside {rs : List (Nat × Nat)} {t u : State} (h : HeaderWritten f p s t.mem)
    (hs : SameOutside rs t u) (ha : ∀ r ∈ rs, Apart (storeHeader s f.store) r) : HeaderWritten f p s u.mem := by
  have hkeep : ∀ o < 64, Memory.read u.mem (storeBase s.cfg f.store + o) = Memory.read t.mem (storeBase s.cfg f.store + o) :=
    fun o ho => hs _ fun r hr => ha r hr _ ⟨Nat.le_add_right _ _, Nat.add_lt_add_left ho _⟩
  refine ⟨(hkeep 0 (by decide)).trans h.state, (hkeep 2 (by decide)).trans h.flags, (hkeep 3 (by decide)).trans h.mean, ?_⟩
  refine (readList_congr fun i hi => ?_).trans h.body
  rw [Nat.add_assoc]
  exact hkeep (8 + i) (by omega)

/-- The completion writes its header, and only events after it. -/
theorem completedAt_header (hr : RegionsOk s) (hw : Working s) (hl : f.levels.length = 6)
    (ha : Apart (storeHeader s f.store) (eventList s)) : HeaderWritten f p s (completedAt f p m s).mem := by
  have hwrites := acted_acts (as := completeWrites f p s) hr hw
  have hcfg : ((completeWrites f p s).foldl act s).cfg = s.cfg := by
    rw [hwrites.frame]
    rfl
  have hevents : Acting (Within [eventList s] s) _ _ := (ready_self (hwrites.regionsOk hr) (hwrites.working hw)).acting
    (restoredActs_event (f := f) (s := s) fun e => within_event e (List.mem_singleton_self _))
  rw [← within_cfg hcfg] at hevents
  have hsame := (completeWrites_header (p := p) hr hl).sameOutside hevents.sameOutside fun r hm => by
    rw [List.mem_singleton.1 hm]
    exact ha
  rwa [completedAt, completionActs, List.foldl_append]

/-- A field of the header's body. -/
theorem HeaderWritten.field {t : State} (h : HeaderWritten f p s t.mem) {o n : Nat} (ho : o + n ≤ 30) :
    Memory.readList t.mem (storeBase s.cfg f.store + 8 + o) n = ((headerBody f p).drop o).take n := by
  rw [← h.body, readList_drop, readList_take (by omega)]

end

end Sys2Proof.Proofs

namespace Sys2Proof.Proofs

open Sys2Proof.Machine Sys2Proof.Safety Sys2Proof.Laws

/-! ## FRAME_COMPLETE as one next state -/

/-- The state once the next frame is planned, the report stored and the head bus served (R29, R96, R150). -/
def reportedAt (f : Frame) (p : FramePlan) (m : Nat) (s : State) : State :=
  served (exposureReport (completionReport s.cfg f p s.capture.los) (plannedOn (completedAt f p m s)))

/-- The state after the completion of a frame. -/
def afterComplete (f : Frame) (p : FramePlan) (m : Nat) (s : State) : State :=
  settled (boostServed s.areaBase (storeBase s.cfg f.store) (stillSize s.cfg) p.boost f.store f.seq (reportedAt f p m s))

theorem boostServed_steady (area base size k : Nat) (seq : Word) (s : State) :
    boostServed area base size false k seq s = s := rfl

section

variable {P : Act → Prop} {f : Frame} {p : FramePlan} {m : Nat} {s : State}

@[simp] theorem completedAt_exposure : (completedAt f p m s).exposure = s.exposure := by
  rw [completedAt, idled_tallied]
  rfl

@[simp] theorem completedAt_bus : (completedAt f p m s).bus = s.bus := by
  rw [completedAt, idled_tallied]
  rfl

@[simp] theorem completedAt_still : (completedAt f p m s).still = s.still := by
  rw [completedAt, idled_tallied]
  rfl

@[simp] theorem completedAt_part : (completedAt f p m s).part = s.part := by
  rw [completedAt, idled_tallied]
  rfl

@[simp] theorem completedAt_cfg : (completedAt f p m s).cfg = s.cfg := by
  rw [completedAt, idled_tallied]
  rfl

@[simp] theorem completedAt_completed : (completedAt f p m s).capture.completed = s.capture.completed + 1 := by
  rw [completedAt, idled_tallied]
  rfl

/-- The next frame of a completion. -/
theorem plannedAt_acting (hr : RegionsOk s) (hw : Working s) (he : ∀ e, P (.event e))
    (hs : (plannedOn (completedAt f p m s)).capture.trig = .exposing → ∀ t k q, t.cfg = s.cfg → k < s.cfg.stores →
      ∀ a ∈ startWrites k q t, P a) :
    Acting P (completedAt f p m s) (plannedOn (completedAt f p m s))
      ∧ Planned (completedAt f p m s) (plannedOn (completedAt f p m s)) := by
  have hdone := completedAt_acting (P := anyAct) (f := f) (p := p) (m := m) hr hw fun _ _ => trivial
  exact plannedOn_acting hdone.regionsOk hdone.target_working he fun ht _ t k q hc hk =>
    hs ht t k q (hc.trans hdone.alike.cfg) (hdone.alike.cfg ▸ hk)

theorem plannedAt_any (hr : RegionsOk s) (hw : Working s) :
    Acting anyAct (completedAt f p m s) (plannedOn (completedAt f p m s))
      ∧ Planned (completedAt f p m s) (plannedOn (completedAt f p m s)) :=
  plannedAt_acting hr hw (fun _ => trivial) fun _ _ _ _ _ _ _ _ => trivial

theorem Planned.bus {t u : State} (h : Planned t u) : u.bus = t.bus := by
  rw [h.frame]
  rfl

/-- The report and the search for work, after the next frame has been planned. -/
theorem reportedAt_looked (hr : RegionsOk s) (hw : Working s) (hb : BusReachable s) :
    let v := plannedOn (completedAt f p m s)
    let t := reportedAt f p m s
    busServe (exposureReport (completionReport s.cfg f p s.capture.los) v) = t
      ∧ t.exposure.last = some (completionReport s.cfg f p s.capture.los)
      ∧ t = put t { v with lamp := t.lamp, exposure := t.exposure, bus := t.bus }
      ∧ Acting anyAct v t ∧ (s.bus.state ≠ .fault → ∀ {P}, Acting P v t) := by
  obtain ⟨hact, hplanned⟩ := plannedAt_any (f := f) (p := p) (m := m) hr hw
  have hbus : (plannedOn (completedAt f p m s)).bus = s.bus := hplanned.bus.trans completedAt_bus
  have hlooked := reported_looked (completionReport s.cfg f p s.capture.los) hact.regionsOk hact.target_working
    (by rw [BusReachable, hbus]; exact hb)
  rw [hbus] at hlooked
  exact hlooked

/-- The completion from its writes up to the report. -/
theorem reportedAt_acting (hr : RegionsOk s) (hw : Working s) (hb : BusReachable s) :
    Acting anyAct (completedAt f p m s) (reportedAt f p m s) ∧ (reportedAt f p m s).still = (plannedOn (completedAt f p m s)).still
      ∧ (reportedAt f p m s).capture = (plannedOn (completedAt f p m s)).capture := by
  obtain ⟨hact, hplanned⟩ := plannedAt_any (f := f) (p := p) (m := m) hr hw
  obtain ⟨-, -, hframe, hlooked, -⟩ := reportedAt_looked (f := f) (p := p) (m := m) hr hw hb
  refine ⟨hact.trans hlooked, ?_, ?_⟩
  · rw [hframe]
    rfl
  · rw [hframe]
    rfl

/-- The orders keep their slots until the still unit takes its part. -/
theorem reportedAt_head (hr : RegionsOk s) (hw : Working s) (hb : BusReachable s)
    (hs : ∀ o ∈ s.still.orders.head?, ∀ a ∈ o.origin.slot?, a + 64 ≤ 2 ^ 32) :
    ∀ o ∈ (reportedAt f p m s).still.orders.head?, ∀ a ∈ o.origin.slot?, a + 64 ≤ 2 ^ 32 := by
  intro o ho a ha
  obtain ⟨-, hplanned⟩ := plannedAt_any (f := f) (p := p) (m := m) hr hw
  obtain ⟨-, hstill, -⟩ := reportedAt_acting (f := f) (p := p) (m := m) hr hw hb
  rw [hstill] at ho
  obtain ⟨o', ho', heq⟩ := hplanned.head ho
  rw [completedAt_still] at ho'
  exact hs o' ho' a (heq ▸ ha)

/-- The completion, in the order of its blocks (R29). -/
theorem completeFrame_eq (hr : RegionsOk s) (hw : Working s) (hk : f.store < s.cfg.stores) (hl : f.levels.length = 6)
    (hb : BusReachable s) (hs : ∀ o ∈ s.still.orders.head?, ∀ a ∈ o.origin.slot?, a + 64 ≤ 2 ^ 32)
    (hbuf : p.boost = true → ∀ i,
      (List.range 8).find? (usableAt s.areaBase (stillSize s.cfg) (reportedAt f p m s)) = some i →
        wordAt (reportedAt f p m s) (entryAt s.areaBase i + 4) + 64 ≤ 2 ^ 32) :
    completeFrame f p (advance m s) = afterComplete f p m s := by
  have hready : Ready s (undue (advance m s)) := (ready_self hr hw).change
  have hwritten : Ready ((completeWrites f p s).foldl act s) (undue (advance m s)) := hready.acts _
  have hheader : writeCompleteHeader f p (put s (undue (advance m s)))
      = put ((completeWrites f p s).foldl act s) (undue (advance m s)) := writeCompleteHeader_ready hready (storeHeader_le hr hk) hl
  have hleft : leaveLos f.seq (put ((completeWrites f p s).foldl act s) (undue (advance m s)))
      = put ((completionActs f p s).foldl act s) (restored (undue (advance m s))) := by
    rw [leaveLos_ready hwritten, completionActs, List.foldl_append]
    rfl
  have hrestored : Ready ((completionActs f p s).foldl act s) (restored (undue (advance m s))) :=
    restored_ready (hready.acts (completionActs f p s))
  have hdone := completedAt_acting (P := anyAct) (f := f) (p := p) (m := m) hr hw fun _ _ => trivial
  have htallied : RegionsOk (put ((completionActs f p s).foldl act s) (tallied f p (advance m s))) := hdone.regionsOk
  have hnext : planNext (put ((completionActs f p s).foldl act s) (tallied f p (advance m s)))
      = plannedOn (completedAt f p m s) := planNext_eq htallied
  obtain ⟨hact, -⟩ := plannedAt_any (f := f) (p := p) (m := m) hr hw
  obtain ⟨hserve, -⟩ := reportedAt_looked (f := f) (p := p) (m := m) hr hw hb
  obtain ⟨hafter, -⟩ := reportedAt_acting (f := f) (p := p) (m := m) hr hw hb
  have hreported := hdone.trans hafter
  have hboost := boostDone_eq (k := f.store) (seq := f.seq) (boost := p.boost) hreported.regionsOk hreported.target_working
    (hreported.alike.cfg ▸ hk) (reportedAt_head hr hw hb hs) (by rw [hreported.alike.areaBase, hreported.alike.cfg]; exact hbuf)
  rw [hreported.alike.areaBase, hreported.alike.cfg] at hboost
  have hserved := (boostServed_unplanned (area := s.areaBase) (base := storeBase s.cfg f.store) (size := stillSize s.cfg)
    (boost := p.boost) (k := f.store) (seq := f.seq) hreported.regionsOk hreported.target_working).acting
  unfold completeFrame
  change onward (writeCompleteHeader f p (put s (undue (advance m s)))) _ = _
  rw [hheader, onward_ready hwritten, hleft, onward_ready hrestored]
  refine (congrArg (onward · _) hnext).trans ((onward_of_ne (ne_faulted_of_working hact.target_working)).trans ?_)
  refine (congrArg (onward · _) hserve).trans ((onward_of_ne (ne_faulted_of_working hreported.target_working)).trans ?_)
  refine (congrArg (onward · _) hboost).trans ((onward_of_ne (ne_faulted_of_working hserved.target_working)).trans ?_)
  exact settleHalt_settled hserved.regionsOk hserved.target_working

/-! ### What a completion leaves -/

/-- The still unit and the end of a HALT keep what the completion has made of the counters, the plan and the report. -/
theorem afterComplete_acting (hr : RegionsOk s) (hw : Working s) (hb : BusReachable s) :
    Acting anyAct (completedAt f p m s) (afterComplete f p m s)
      ∧ (afterComplete f p m s).capture.completed = s.capture.completed + 1
      ∧ (afterComplete f p m s).capture.plan = (plannedOn (completedAt f p m s)).capture.plan
      ∧ (afterComplete f p m s).exposure.last = some (completionReport s.cfg f p s.capture.los) := by
  obtain ⟨-, hplanned⟩ := plannedAt_any (f := f) (p := p) (m := m) hr hw
  obtain ⟨-, hlast, -⟩ := reportedAt_looked (f := f) (p := p) (m := m) hr hw hb
  obtain ⟨hact, -, hcapture⟩ := reportedAt_acting (f := f) (p := p) (m := m) hr hw hb
  have hserved := boostServed_unplanned (area := s.areaBase) (base := storeBase s.cfg f.store) (size := stillSize s.cfg)
    (boost := p.boost) (k := f.store) (seq := f.seq) hact.regionsOk hact.target_working
  have hregions := hserved.acting.regionsOk
  have hworking := hserved.acting.target_working
  refine ⟨(hact.trans hserved.acting).trans (settled_acting hregions hworking fun _ => trivial), ?_, ?_, ?_⟩
  · rw [afterComplete, settled_capture hregions hworking, hserved.completed, hcapture, hplanned.completed]
    exact completedAt_completed
  · rw [afterComplete, settled_capture hregions hworking, hserved.plan, hcapture]
  · rw [afterComplete, settled_exposure hregions hworking, hserved.exposure, hlast]

/-- The next frame is planned as the exposure unit had it before the report (R22). -/
theorem afterComplete_plan (hr : RegionsOk s) (hp : s.part = .running) (hb : BusReachable s) :
    (afterComplete f p m s).capture.plan = some (nextPlan (boostWaiting s.still) (completedAt f p m s)) := by
  have hdone := completedAt_acting (P := anyAct) (f := f) (p := p) (m := m) hr (.inl hp) fun _ _ => trivial
  have hrunning : (completedAt f p m s).part = .running := completedAt_part.trans hp
  have hplan : plannedOn (completedAt f p m s) = nextFrame (completedAt f p m s) := if_pos hrunning
  obtain ⟨-, -, hnext⟩ := nextFrame_acting (P := anyAct) (s := completedAt f p m s) ⟨hrunning, hdone.regionsOk⟩
    (fun _ => trivial) fun _ _ _ _ _ _ _ _ => trivial
  obtain ⟨-, -, heq, -⟩ := afterComplete_acting (f := f) (p := p) (m := m) hr (.inl hp) hb
  rw [heq, hplan, hnext, completedAt_still]

/-- A frame without a boost leaves the still unit alone, and a quiet bus writes nothing. -/
theorem afterComplete_quiet (hr : RegionsOk s) (hw : Working s) (hb : BusReachable s) (hp : p.boost = false)
    (hq : BusQuiet s) (he : ∀ e, P (.event e))
    (hs : (afterComplete f p m s).capture.trig = .exposing → ∀ t k q, t.cfg = s.cfg → k < s.cfg.stores →
      ∀ a ∈ startWrites k q t, P a) : Acting P (completedAt f p m s) (afterComplete f p m s) := by
  obtain ⟨-, -, -, -, hquiet⟩ := reportedAt_looked (f := f) (p := p) (m := m) hr hw hb
  obtain ⟨hact, -, hcapture⟩ := reportedAt_acting (f := f) (p := p) (m := m) hr hw hb
  have heq : afterComplete f p m s = settled (reportedAt f p m s) := by rw [afterComplete, hp, boostServed_steady]
  rw [heq, settled_capture hact.regionsOk hact.target_working, hcapture] at hs
  rw [heq]
  exact ((plannedAt_acting hr hw he hs).1.trans (hquiet hq.1)).trans (settled_acting hact.regionsOk hact.target_working he)

/-- The header stays as it was written while no frame is triggered. -/
theorem afterComplete_header (hr : RegionsOk s) (hw : Working s) (hb : BusReachable s) (hp : p.boost = false)
    (hq : BusQuiet s) (hl : f.levels.length = 6) (ht : (afterComplete f p m s).capture.trig ≠ .exposing)
    (ha : Apart (storeHeader s f.store) (eventList s)) : HeaderWritten f p s (afterComplete f p m s).mem := by
  have hcfg := completedAt_cfg (f := f) (p := p) (m := m) (s := s)
  have hquiet := afterComplete_quiet (P := Within [eventList s] s) hr hw hb hp hq
    (fun e => within_event e (List.mem_singleton_self _)) fun h => absurd h ht
  rw [← within_cfg hcfg] at hquiet
  exact (completedAt_header hr hw hl ha).sameOutside hquiet.sameOutside fun r hm => by
    rw [List.mem_singleton.1 hm]
    exact ha

/-- A completion without a boost writes the event list and headers of stores. -/
theorem afterComplete_within (hr : RegionsOk s) (hw : Working s) (hb : BusReachable s) (hp : p.boost = false)
    (hq : BusQuiet s) (hl : f.levels.length = 6) (hk : f.store < s.cfg.stores) :
    Acting (Within (eventList s :: (List.range s.cfg.stores).map (storeHeader s)) s) s (afterComplete f p m s) := by
  have hevents : eventList s ∈ eventList s :: (List.range s.cfg.stores).map (storeHeader s) := List.mem_cons_self
  have hheader : ∀ k < s.cfg.stores, storeHeader s k ∈ eventList s :: (List.range s.cfg.stores).map (storeHeader s) :=
    fun k hk => List.mem_cons_of_mem _ (List.mem_map.2 ⟨k, List.mem_range.2 hk, rfl⟩)
  exact (completedAt_acting hr hw (completionActs_within hl (hheader f.store hk) hevents)).trans
    (afterComplete_quiet hr hw hb hp hq (fun e => within_event e hevents)
      fun _ t k q hc hk => startWrites_within_cfg hc (hheader k hk) hevents)

end

/-! ### The command -/

theorem exec_frameComplete {f : Frame} {p : FramePlan} {m : Nat} {s : State} (ht : s.capture.trig = .readout)
    (hf : s.capture.frame = some f) (hp : s.capture.plan = some p) (hpic : f.picture = true)
    (hl : f.lines = s.cfg.height) : exec (.frameComplete m) s = .next (completeFrame f p (advance m s)) := by
  have hf' : (advance m s).capture.frame = some f := hf
  have hp' : (advance m s).capture.plan = some p := hp
  change execFrameComplete m s = _
  rw [execFrameComplete, frameCompleteOp, hf', hp']
  exact congrArg Host.Outcome.next (if_pos ⟨ht, hpic, hl⟩)

/-- The flags of the header by their bits (manual section 12.6). -/
theorem headerFlags_bits (still burned held sat : Bool) : headerFlags still burned held sat
    = byte ((if still then 1 else 0) + 2 * (if burned then 1 else 0) + 4 * (if held then 1 else 0)
      + 8 * (if sat then 1 else 0)) := by
  simp only [headerFlags, mul_ite, Nat.mul_one, Nat.mul_zero]

theorem headerBody_flatMap (f : Frame) (p : FramePlan) : headerBody f p = le32i f.chainage ++ le32 p.t ++ le16 f.gain
    ++ le16 f.autoLevel ++ f.levels.flatMap le16 ++ le32 p.tCap ++ le16i (f.temp.getD (-32768)) := by
  rw [headerBody, List.flatMap_def]
  rfl

/-- The fields of the header's body at their offsets (manual section 12.6). -/
theorem headerBody_fields {f : Frame} {p : FramePlan} (hl : f.levels.length = 6) :
    ((headerBody f p).drop 0).take 4 = le32i f.chainage ∧ ((headerBody f p).drop 4).take 4 = le32 p.t
      ∧ ((headerBody f p).drop 8).take 2 = le16 f.gain ∧ ((headerBody f p).drop 10).take 2 = le16 f.autoLevel
      ∧ ((headerBody f p).drop 12).take 12 = f.levels.flatMap le16 ∧ ((headerBody f p).drop 24).take 4 = le32 p.tCap
      ∧ ((headerBody f p).drop 28).take 2 = le16i (f.temp.getD (-32768)) := by
  rw [headerBody_flatMap]
  match hls : f.levels, hl with
  | [a, b, c, d, e, g], _ => exact ⟨rfl, rfl, rfl, rfl, rfl, rfl, rfl⟩

/-- Settles O38: the completion in the order of its blocks, each read off as one state. -/
theorem frameCompleteMarksStore : Obligations.FrameCompleteMarksStore := by
  intro m f p s htrig hframe hplan hpic hlines hk hring hl hpart hr hb hheld hslots base mean bit flags report writes claimed
    entry done planned reported size entryAt field empty usable select stilled ended hbuf
  have hw : Working s := hpart.elim .inl fun h => .inr (.inl h)
  have hheads : ∀ o ∈ s.still.orders.head?, ∀ a ∈ o.origin.slot?, a + 64 ≤ 2 ^ 32 := fun o ho a ha =>
    hslots o a ho (slot?_eq_some.1 ha)
  have hflags : flags = headerFlags p.boost s.cfg.burnIn f.held f.saturated := (headerFlags_bits ..).symm
  have hwrites : writes = completionActs f p s := by
    rw [completionActs, completeWrites, restoredActs, headerBody_flatMap, ← hflags]
    rfl
  have hdone : done = completedAt f p m s := by
    rw [completedAt_eq hr hw, ← hwrites]
  have hplanned : planned = plannedOn (completedAt f p m s) := by
    rw [plannedOn, completedAt_part, ← hdone]
  have hreported : reported = reportedAt f p m s := by
    rw [reportedAt, ← hplanned]
    rfl
  have hended : ended = boostServed s.areaBase base size p.boost f.store f.seq reported := rfl
  have hexec : exec (.frameComplete m) s = .next (afterComplete f p m s) := by
    rw [exec_frameComplete htrig hframe hplan hpic hlines, completeFrame_eq hr hw hk hl hb hheads (hreported ▸ hbuf)]
  obtain ⟨hafter, hcompleted, -, hlast⟩ := afterComplete_acting (f := f) (p := p) (m := m) hr hw hb
  have hbefore := completedAt_acting (P := anyAct) (f := f) (p := p) (m := m) hr hw fun _ _ => trivial
  refine ⟨_, hexec, ?_, fun hlos => hafter.reported (reported_completedAt hr hw hlos), hcompleted, hlast, fun hp => ?_,
    fun hp hq ht ha => ?_, fun hp hq => (afterComplete_within hr hw hb hp hq hl hk).sameOutside,
    (hbefore.trans hafter).list_eq⟩
  · rw [hended, hreported]
    rfl
  · refine ⟨_, afterComplete_plan hr hp hb, ?_, ?_, rfl⟩
    · exact congrArg Exposure.planT completedAt_exposure
    · exact congrArg Exposure.planL completedAt_exposure
  · have hheader := afterComplete_header hr hw hb hp hq hl ht ha
    obtain ⟨hchainage, ht, hgain, hlevel, hlevels, hcap, htemp⟩ := headerBody_fields (p := p) hl
    exact ⟨hheader.state, hheader.flags.trans hflags.symm, hheader.mean, (hheader.field (o := 0) (by decide)).trans hchainage,
      (hheader.field (o := 4) (by decide)).trans ht, (hheader.field (o := 8) (by decide)).trans hgain,
      (hheader.field (o := 10) (by decide)).trans hlevel, (hheader.field (o := 12) (by decide)).trans hlevels,
      (hheader.field (o := 24) (by decide)).trans hcap, (hheader.field (o := 28) (by decide)).trans htemp⟩

end Sys2Proof.Proofs

namespace Sys2Proof.Proofs

open Sys2Proof.Machine Sys2Proof.Safety Sys2Proof.Laws

/-! ## Playout: the store of greatest distance (R44, R45) -/

theorem mem_candidates {s : State} {k : Nat} : k ∈ candidates s [] ↔
    k < s.cfg.stores ∧ (storeAt s k).state = .complete ∧ fresher s (storeAt s k).seq = true := by
  simp [candidates, storesInUse]

theorem bestCandidate_mem {s : State} : ∀ {ks : List Nat} {k : Nat}, bestCandidate s ks = some k → k ∈ ks
  | j :: js, k, h => by
    simp only [bestCandidate] at h
    split at h
    · exact Option.some.inj h ▸ List.mem_cons_self
    · rename_i i hi
      split at h
      · exact Option.some.inj h ▸ List.mem_cons_of_mem _ (bestCandidate_mem hi)
      · exact Option.some.inj h ▸ List.mem_cons_self

/-- The candidate of strictly greatest distance is the best one, wherever it stands. -/
theorem bestCandidate_greatest {s : State} {k : Nat} : ∀ {ks : List Nat}, k ∈ ks →
    (∀ j ∈ ks, j ≠ k → distance s (storeAt s j).seq < distance s (storeAt s k).seq) → bestCandidate s ks = some k
  | j :: js, hk, hd => by
    have hrest : ∀ i ∈ js, i ≠ k → distance s (storeAt s i).seq < distance s (storeAt s k).seq :=
      fun i hi => hd i (List.mem_cons_of_mem _ hi)
    rw [bestCandidate]
    by_cases hmem : k ∈ js
    · rw [bestCandidate_greatest hmem hrest]
      by_cases hj : j = k
      · simp [hj]
      · simp [hd j List.mem_cons_self hj]
    · obtain rfl := (List.mem_cons.1 hk).resolve_right hmem
      match hb : bestCandidate s js with
      | none => rfl
      | some i =>
        have hi := bestCandidate_mem hb
        exact if_neg (Nat.lt_asymm (hrest i hi fun h => hmem (h ▸ hi)))

theorem playoutFrame_lit {s : State} (h : s.part.lit = true) : playoutFrame s = selectShown 16 [] s := by
  cases hp : s.part <;> simp [PartState.lit, hp] at h <;> simp only [playoutFrame, hp]

/-- The ring table with the playout pin on store `k` alone (R34). -/
def pinnedAt (k : Nat) (s : State) : List RingEntry := (unpinned s.ring).set k { storeAt s k with playPin := true }

theorem pinStore_complete {k : Nat} {s : State} (h : (storeAt s k).state = .complete) :
    pinStore k s = some { s with ring := pinnedAt k s } := by
  have hring : updateAt (unpinned s.ring) k (fun e => { e with playPin := true }) = pinnedAt k s := by
    rw [updateAt_getD _ _ {}, pinnedAt, storeAt, unpinned]
    congr 1
    by_cases hk : k < s.ring.length <;> simp [List.getD_eq_getElem?_getD, hk]
  rw [pinStore, if_pos h, ← hring]
  rfl

/-- Playout and the ring table once store `k` is shown (R45). -/
def shownAt (k : Nat) (s : State) : State := { s with
  ring := pinnedAt k s
  playout := { s.playout with
    shown := some k, lastShown := (storeAt s k).seq, consec := 0, stallOpen := false, video := .store k
    notShown := s.playout.notShown + BitVec.ofNat 32 (distance s (storeAt s k).seq - 1) } }

/-- The report of a stall episode that a shown store closes (R50). -/
def resumedActs (k : Nat) (s : State) : List Act :=
  if s.playout.stallOpen then [.event (Event.captureResumed (storeAt s k).seq s.playout.consec)] else []

/-- A release of the previous pin, if there was one, reported to the capture unit (R24, R34). -/
def releasedFrom (p : Playout) (s : State) : State := if p.shown.isSome then retried s else s

theorem put_regionsOk {w v : State} (h : Ready w v) (hb : v.workBase = w.workBase) : RegionsOk (put w v) :=
  (h.acting (as := []) (P := anyAct) nofun hb).regionsOk

theorem reportRelease_ready {w v : State} (h : Ready w v) (hb : v.workBase = w.workBase) :
    reportRelease (put w v) = retried (put w v) :=
  reportRelease_retried (put_regionsOk h hb) h.alike.working

theorem showStore_eq {k : Nat} {s : State} (hr : RegionsOk s) (hw : Working s) :
    showStore k { s with ring := pinnedAt k s } s
      = releasedFrom s.playout (put ((resumedActs k s).foldl act s) (shownAt k s)) := by
  have h : Ready s (shownAt k s) := (ready_self hr hw).change
  have hsaid : (if s.playout.stallOpen then
      emit (Event.captureResumed (storeAt s k).seq s.playout.consec) (put s (shownAt k s)) else put s (shownAt k s))
      = put ((resumedActs k s).foldl act s) (shownAt k s) := by
    rw [emit_ready h, resumedActs]
    split <;> rfl
  have hwb : (shownAt k s).workBase = ((resumedActs k s).foldl act s).workBase := by
    rw [(acted_acts hr hw).frame]
    rfl
  have hacts := h.acts (resumedActs k s)
  rw [releasedFrom, ← reportRelease_ready hacts hwb, ← onward_ready hacts reportRelease, ← hsaid]
  rfl

theorem playoutFrame_shows {k : Nat} {s : State} (hl : s.part.lit = true) (hr : RegionsOk s) (hk : k ∈ candidates s [])
    (hd : ∀ j ∈ candidates s [], j ≠ k → distance s (storeAt s j).seq < distance s (storeAt s k).seq) :
    playoutFrame s = releasedFrom s.playout (put ((resumedActs k s).foldl act s) (shownAt k s)) := by
  rw [playoutFrame_lit hl, selectShown, bestCandidate_greatest hk hd]
  simp only [pinStore_complete (mem_candidates.1 hk).2.1]
  exact showStore_eq hr (working_of_lit hl)

/-! ## Playout: underruns and stalls (R47 to R49) -/

theorem playoutFrame_underruns {s : State} (hl : s.part.lit = true) (hn : candidates s [] = []) :
    playoutFrame s = underrun s := by
  rw [playoutFrame_lit hl, selectShown, hn]
  rfl

/-- Playout without a shown store, the fill picture in its place (R47). -/
def turned (s : State) : State := { s with
  playout := { s.playout with shown := none, video := .fill true }
  ring := if s.playout.shown.isSome then unpinned s.ring else s.ring }

theorem turnToFill_ready {w v : State} (h : Ready w v) (hb : v.workBase = w.workBase) :
    turnToFill (put w v) = releasedFrom v.playout (put w (turned v)) := by
  have ht : Ready w (turned v) := h.change
  rw [releasedFrom, ← reportRelease_ready ht hb]
  cases hs : v.playout.shown <;> simp only [turnToFill, turned, put, hs] <;> rfl

/-- An underrun counted (R47). -/
def missed (s : State) : State := { s with playout := { s.playout with
  underruns := s.playout.underruns + 1, consec := min 255 (s.playout.consec + 1) } }

/-- An underrun that opens no stall turns to fill in a stall, in LOS and in FILL, and else repeats the picture. -/
theorem underrun_quiet {s : State} (h : s.playout.stallOpen = true ∨ min 255 (s.playout.consec + 1) ≠ s.cfg.stallLimit) :
    underrun s = if s.playout.stallOpen || s.capture.los || s.cfg.underrunFill then turnToFill (missed s)
      else { s with playout := { (missed s).playout with
        video := match s.playout.shown with | none => .fill true | some k => .store k } } := by
  unfold underrun missed
  by_cases ho : s.playout.stallOpen = true
  · simp only [ho, Bool.true_or, if_true]
  · have hn := h.resolve_left ho
    simp only [ho, hn, if_false, Bool.false_or, Bool.false_eq_true]
    by_cases hlos : s.capture.los = true
    · simp only [hlos, Bool.true_or, if_true]
    · simp only [hlos, Bool.false_or, if_false, Bool.false_eq_true]
      split
      · rfl
      · cases s.playout.shown <;> rfl

/-- The event of a stall that opens (R49). -/
def stallEvent (s : State) : Event := Event.captureStall s.playout.lastShown s.cfg.stallLimit s.capture.los

/-- A stall that opens, with its latch (R49). -/
def latched (s : State) : State := { stalled s with playout := { (stalled s).playout with stallLatch := true } }

theorem underrun_stalls {s : State} (hr : RegionsOk s) (hw : Working s) (ho : s.playout.stallOpen = false)
    (hn : min 255 (s.playout.consec + 1) = s.cfg.stallLimit) : underrun s
      = releasedFrom s.playout (put (act s (.event (stallEvent s))) (turned (latched s))) := by
  have hs : Ready s (stalled s) := (ready_self hr hw).change
  have hl : Ready (act s (.event (stallEvent s))) (latched s) := (hs.act _).change
  have hwb : (latched s).workBase = (act s (.event (stallEvent s))).workBase := by
    rw [(acted_act hr hw).frame]
    rfl
  have hopen : underrun s = onward (emit (stallEvent s) (put s (stalled s))) fun u =>
      turnToFill { u with playout := { u.playout with stallLatch := true } } := by
    unfold underrun
    simp only [hn, ho, Bool.false_eq_true, if_false, if_true]
    rfl
  rw [hopen, emit_ready hs, onward_ready (hs.act _)]
  exact turnToFill_ready hl hwb

/-! ### What playout leaves -/

theorem releasedFrom_playout {p : Playout} {s : State} (hr : RegionsOk s) (hw : Working s) :
    (releasedFrom p s).playout = s.playout := by
  unfold releasedFrom
  split
  · obtain h | ⟨k, q, -, -, -, h⟩ := retried_cases s <;> rw [h]
    rw [(startFrame_planned hr hw).1.frame]
    rfl
  · rfl

theorem releasedFrom_acting {P : Act → Prop} {p : Playout} {s : State} (hr : RegionsOk s) (hw : Working s)
    (hP : s.capture.trig = .deferred → ∀ k q, selectStore s = some k → ∀ a ∈ startWrites k q s, P a) :
    Acting P s (releasedFrom p s) := by
  unfold releasedFrom
  split
  · by_cases ht : s.capture.trig = .deferred
    · exact (retried_acting hr hw (hP ht)).1
    · rw [retried_same (.inl ht)]
      exact .refl hr hw
  · exact .refl hr hw

/-- What a stall may write: its event, and the headers of the stores where a frame is deferred. -/
def stallRanges (s : State) : List (Nat × Nat) :=
  eventList s :: if s.capture.trig = .deferred then (List.range s.cfg.stores).map (storeHeader s) else []

/-- A stall that opens, before the release of the pin is acted on (R47, R49). -/
def stallFilled (s : State) : State := put (act s (.event (stallEvent s))) (turned (latched s))

theorem stallFilled_acting {s : State} (hr : RegionsOk s) (hw : Working s) :
    Acting (Within (stallRanges s) s) s (stallFilled s) :=
  have h : Ready s (turned (latched s)) := (ready_self hr hw).change
  h.acting (as := [.event (stallEvent s)]) fun _ ha =>
    List.mem_singleton.1 ha ▸ within_event _ List.mem_cons_self

theorem stallReleased_acting {s : State} (hr : RegionsOk s) (hw : Working s) :
    Acting (Within (stallRanges s) s) s (releasedFrom s.playout (stallFilled s)) := by
  have h := stallFilled_acting hr hw
  refine h.trans (releasedFrom_acting h.regionsOk h.target_working fun ht k q hk a ha => ?_)
  have hmem : storeHeader s k ∈ stallRanges s := by
    rw [stallRanges, if_pos (show s.capture.trig = .deferred from ht)]
    exact List.mem_cons_of_mem _ (List.mem_map_of_mem (List.mem_range.2 (selectStore_lt (s := stallFilled s) hk)))
  exact startWrites_within_cfg (s := s) (t := stallFilled s) rfl hmem List.mem_cons_self a ha

theorem shown_reported {k : Nat} {s : State} (hr : RegionsOk s) (hw : Working s) (ho : s.playout.stallOpen = true) :
    Reported 10 (put ((resumedActs k s).foldl act s) (shownAt k s)) := by
  rw [resumedActs, if_pos ho]
  exact emit_reported (e := Event.captureResumed (storeAt s k).seq s.playout.consec) hr hw (show 10 < 24 by decide)

theorem acts_ring_playout {as : List Act} {s : State} (hr : RegionsOk s) (hw : Working s) (r : List RingEntry) (p : Playout) :
    { as.foldl act s with ring := r, playout := p } = put (as.foldl act s) { s with ring := r, playout := p } := by
  have hf := (acted_acts (as := as) hr hw).frame
  generalize as.foldl act s = w at hf ⊢
  rw [hf]
  rfl

/-- A store of greatest distance is shown, and a stall episode it closes is reported (R44, R45, R50). -/
theorem playout_shows {s : State} (hl : s.part.lit = true) (hr : RegionsOk s) {k : Nat} (hk : k ∈ candidates s [])
    (hd : ∀ j ∈ candidates s [], j ≠ k → distance s (storeAt s j).seq < distance s (storeAt s k).seq) :
    let shown := put ((resumedActs k s).foldl act s) (shownAt k s)
    let t := blockFrame .playout s
    t = releasedFrom s.playout shown ∧ t.playout = shown.playout
      ∧ (s.playout.stallOpen = true → Reported 10 t) := by
  intro shown t
  have hw := working_of_lit hl
  have h : Ready s (shownAt k s) := (ready_self hr hw).change
  have hshown : Acting anyAct s shown := h.acting fun _ _ => trivial
  have ht : t = releasedFrom s.playout shown := playoutFrame_shows hl hr hk hd
  rw [ht]
  exact ⟨rfl, releasedFrom_playout hshown.regionsOk hshown.target_working, fun ho =>
    (releasedFrom_acting (P := anyAct) hshown.regionsOk hshown.target_working fun _ _ _ _ _ _ => trivial).reported
      (shown_reported hr hw ho)⟩

/-- An underrun that opens a stall (R47, R49). -/
theorem playout_stalls {s : State} (hl : s.part.lit = true) (hr : RegionsOk s) (hn : candidates s [] = [])
    (ho : s.playout.stallOpen = false) (hc : min 255 (s.playout.consec + 1) = s.cfg.stallLimit) :
    let t := releasedFrom s.playout (stallFilled s)
    exec .captureStall s = .next t ∧ blockFrame .playout s = t ∧ Reported 9 t
      ∧ t.playout = (turned (latched s)).playout ∧ SameOutside (stallRanges s) s t ∧ SameListButEvent s t := by
  intro t
  have hw := working_of_lit hl
  have hfilled := stallFilled_acting hr hw
  have ht := stallReleased_acting hr hw
  have hunder : underrun s = t := underrun_stalls hr hw ho hc
  have hnext : stallNext s = true := by
    have hb : bestCandidate s (candidates s []) = none := by rw [hn]; rfl
    simp [stallNext, hl, ho, hc, hb]
  have hreported : Reported 9 (stallFilled s) := emit_reported (e := stallEvent s) hr hw (show 9 < 24 by decide)
  refine ⟨?_, (playoutFrame_underruns hl hn).trans hunder, ?_, releasedFrom_playout hfilled.regionsOk hfilled.target_working,
    ht.sameOutside, ht.list_eq⟩
  · rw [← hunder]
    exact congrArg Host.Outcome.next (if_pos hnext)
  · refine (releasedFrom_acting (P := anyAct) hfilled.regionsOk hfilled.target_working ?_).reported hreported
    exact fun _ _ _ _ _ _ => trivial

/-- An underrun that opens none (R47, R48). -/
theorem playout_underruns {s : State} (hl : s.part.lit = true) (hr : RegionsOk s) (hn : candidates s [] = [])
    (h : s.playout.stallOpen = true ∨ min 255 (s.playout.consec + 1) ≠ s.cfg.stallLimit) :
    blockFrame .playout s = if s.playout.stallOpen || s.capture.los || s.cfg.underrunFill then
        releasedFrom s.playout (turned (missed s))
      else { s with playout := { (missed s).playout with
        video := match s.playout.shown with | none => .fill true | some k => .store k } } := by
  have hw := working_of_lit hl
  have hm : Ready s (missed s) := (ready_self hr hw).change
  have hfill : turnToFill (missed s) = releasedFrom s.playout (turned (missed s)) := turnToFill_ready hm rfl
  rw [← hfill, ← underrun_quiet h]
  exact playoutFrame_underruns hl hn

/-! ## The picture at the port (R42, R53, R57, R61, R71) -/

theorem frameValid_iff (s : State) (y : Nat) : frameValid s y = true ↔ s.playout.video ≠ .none ∧ y < s.cfg.height := by
  simp [frameValid]

theorem lineValid_iff (s : State) (x y : Nat) :
    lineValid s x y = true ↔ s.playout.video ≠ .none ∧ y < s.cfg.height ∧ x < s.cfg.width := by
  simp [lineValid, frameValid, and_assoc]

theorem videoByte_outside {s : State} {x y b : Nat}
    (h : s.playout.video = .none ∨ s.cfg.width ≤ x ∨ s.cfg.height ≤ y ∨ 2 ≤ b) : videoByte s x y b = none := by
  refine if_neg fun hv => ?_
  rw [Bool.and_eq_true, lineValid_iff, decide_eq_true_eq] at hv
  obtain ⟨⟨hnone, hy, hx⟩, hb⟩ := hv
  obtain h | h | h | h := h
  · exact hnone h
  all_goals omega

theorem videoByte_inside {s : State} {x y b : Nat} (hv : s.playout.video ≠ .none) (hx : x < s.cfg.width)
    (hy : y < s.cfg.height) (hb : b < 2) : videoByte s x y b = pictureByte s x y b :=
  if_pos (by rw [Bool.and_eq_true, lineValid_iff, decide_eq_true_eq]; exact ⟨⟨hv, hy, hx⟩, hb⟩)

theorem blinkOn_false {o : Overlay} : blinkOn o = false ↔ o.blinkPeriod ≠ 0 ∧ o.blinkPeriod / 2 ≤ o.blinkCounter := by
  simp [blinkOn]

theorem paint_eq (o : Overlay) (p : BitVec 4) (c : Component) (video : Byte) : paint o p c video =
    if (p ^^^ o.key) &&& o.care = 0 then video else blend (o.palette.getD p.toNat {}) c video :=
  if_congr beq_iff_eq rfl rfl

/-! ### The three places of a pixel: outside the cells, in the banner row, in a cell -/

section

variable {cfg : Cfg} {o : Overlay} {x y : Nat} {c : Component} {video : Byte}

theorem composeByte_outside (h : ¬ (x / cellWidth cfg < visibleCols cfg ∧ y / cellHeight cfg < visibleRows cfg)) :
    composeByte cfg o x y c video = video :=
  if_pos (by omega)

theorem composeByte_banner (h : x / cellWidth cfg < visibleCols cfg ∧ y / cellHeight cfg < visibleRows cfg)
    (hb : cfg.bannerEnable = true ∧ y / cellHeight cfg = cfg.bannerRow) : composeByte cfg o x y c video
      = paintBanner cfg o x (y % cellHeight cfg / cfg.scale) c video :=
  (if_neg (by omega)).trans (if_pos hb)

theorem composeByte_cell (h : x / cellWidth cfg < visibleCols cfg ∧ y / cellHeight cfg < visibleRows cfg)
    (hb : ¬ (cfg.bannerEnable = true ∧ y / cellHeight cfg = cfg.bannerRow)) : composeByte cfg o x y c video
      = paintCell o (o.cells.getD (cellIndex (y / cellHeight cfg) (x / cellWidth cfg)) {})
          (y % cellHeight cfg / cfg.scale) (x % cellWidth cfg / cfg.scale) c video :=
  (if_neg (by omega)).trans (if_neg hb)

end

/-! ### Glyphs (R59) -/

theorem ofNat_bytes (a b : Byte) : BitVec.ofNat 16 (256 * a.toNat + b.toNat) = a ++ b := by
  refine BitVec.eq_of_toNat_eq ?_
  rw [BitVec.toNat_append, BitVec.toNat_ofNat, ← Nat.shiftLeft_add_eq_or_of_lt b.isLt, Nat.shiftLeft_eq]
  omega

theorem glyphBit_loaded {glyphs : List Byte} {code row col : Nat} (hc : 0xE0 ≤ code) (hcol : col < 16) :
    glyphBit glyphs code row col
      = (glyphs.getD (48 * (code - 0xE0) + 2 * row + col / 8) 0).getLsbD (7 - col % 8) := by
  rw [glyphBit, glyphRow, if_pos hc, u8, u8, ofNat_bytes, BitVec.getLsbD_append, Nat.mul_comm 48]
  by_cases h : col < 8
  · have hd : col / 8 = 0 := by omega
    have hm : 15 - col - 8 = 7 - col % 8 := by omega
    rw [if_neg (by omega), hd, hm, Nat.add_zero]
  · have hd : col / 8 = 1 := by omega
    have hm : 15 - col = 7 - col % 8 := by omega
    rw [if_pos (by omega), hd, hm]

theorem glyphBit_blank {glyphs : List Byte} {code row col : Nat} (h : code ≤ 0x20 ∨ code = 0x7F) :
    glyphBit glyphs code row col = false := by
  rw [glyphBit, glyphRow, if_neg (by omega), if_pos h]
  exact BitVec.getLsbD_zero

theorem glyphBit_block {glyphs : List Byte} {row col : Nat} : glyphBit glyphs 0xDB row col = true := by
  rw [glyphBit, glyphRow, if_neg (by decide), if_neg (by decide), if_pos rfl]
  exact (BitVec.getLsbD_allOnes (v := 16)).trans (decide_eq_true (by omega))

theorem glyphBit_fixed {code : Nat} (h : code < 0xE0) (glyphs others : List Byte) (row col : Nat) :
    glyphBit glyphs code row col = glyphBit others code row col := by
  have hc : ¬ 0xE0 ≤ code := by omega
  simp only [glyphBit, glyphRow, if_neg hc]

end Sys2Proof.Proofs

namespace Sys2Proof.Proofs

open Sys2Proof.Machine Sys2Proof.Safety Sys2Proof.Laws

/-! ## The stamp text (R73) -/

/-- The centimetre count is the nearest to X / 10, with an exact half moved away from zero. -/
theorem centimetres_nearest (x : Int) : 2 * |10 * centimetres x - x| ≤ 10
    ∧ (2 * |10 * centimetres x - x| = 10 → |x| < |10 * centimetres x|) := by
  simp only [Int.abs_eq_natAbs, centimetres]
  split <;> omega

theorem centimetres_bounds {x : Int} (hl : -999994 ≤ x) (hu : x ≤ 9999994) :
    -99999 ≤ centimetres x ∧ centimetres x ≤ 999999 := by
  unfold centimetres
  split <;> omega

/-- The character of the digit of weight `w`. -/
def digitOf (n w : Nat) : Byte := byte (0x30 + n / w % 10)

/-- The digits of a whole part of at most four, of a number in hundredths. -/
theorem digits_hundredths {n : Nat} (h : n < 1000000) : digits 5 (n / 100) =
    if n < 1000 then [digitOf n 100]
    else if n < 10000 then [digitOf n 1000, digitOf n 100]
    else if n < 100000 then [digitOf n 10000, digitOf n 1000, digitOf n 100]
    else [digitOf n 100000, digitOf n 10000, digitOf n 1000, digitOf n 100] := by
  simp only [digits, Nat.div_div_eq_div_mul, Nat.div_lt_iff_lt_mul (by decide : 0 < 100), Nat.reduceMul,
    Nat.div_lt_iff_lt_mul (by decide : 0 < 1000), Nat.div_lt_iff_lt_mul (by decide : 0 < 10000),
    Nat.div_lt_iff_lt_mul (by decide : 0 < 100000), h, if_true, digitOf]
  have lead {w : Nat} (hw : n < w * 10) : n / w % 10 = n / w := Nat.mod_eq_of_lt (Nat.div_lt_of_lt_mul hw)
  split_ifs
  · rw [lead (by omega)]
  · rw [lead (w := 1000) (by omega)]; rfl
  · rw [lead (w := 10000) (by omega)]; rfl
  · rw [lead (w := 100000) (by omega)]; rfl

/-- The minus sign of a negative count, else a blank. -/
def signOf (c : Int) : Byte := if c < 0 then 0x2D else 0x20

/-- Cells 1 to 5 of a centimetre count: the sign and the whole metres, right-aligned. -/
def stampMetres (c : Int) : List Byte :=
  let n := c.natAbs
  if n < 1000 then [0x20, 0x20, 0x20, signOf c, digitOf n 100]
  else if n < 10000 then [0x20, 0x20, signOf c, digitOf n 1000, digitOf n 100]
  else if n < 100000 then [0x20, signOf c, digitOf n 10000, digitOf n 1000, digitOf n 100]
  else [0x20, digitOf n 100000, digitOf n 10000, digitOf n 1000, digitOf n 100]

theorem stampNumber_eq {x : Int} (hl : -999994 ≤ x) (hu : x ≤ 9999994) : stampNumber x
    = stampMetres (centimetres x) ++ [0x2E, digitOf (centimetres x).natAbs 10, digitOf (centimetres x).natAbs 1] := by
  obtain ⟨hlow, hhigh⟩ := centimetres_bounds hl hu
  simp only [stampNumber, stampMetres, signOf]
  generalize centimetres x = c at *
  have hone : byte (0x30 + c.natAbs % 10) = digitOf c.natAbs 1 := by rw [digitOf, Nat.div_one]
  rw [digits_hundredths (by omega), hone]
  by_cases hc : c < 0
  · rw [if_pos hc, if_pos hc]
    split_ifs
    · rfl
    · rfl
    · rfl
    · omega
  · rw [if_neg hc, if_neg hc]
    split_ifs <;> rfl

theorem stampMetres_length (c : Int) : (stampMetres c).length = 5 := by
  simp only [stampMetres]
  split_ifs <;> rfl

theorem stampMetres_units (c : Int) : (stampMetres c).getD 4 0 = digitOf c.natAbs 100 := by
  simp only [stampMetres]
  split_ifs <;> rfl

/-- The character at cell 4 − i: a digit, the sign before the first one, or a blank. -/
theorem stampMetres_tens {c : Int} (hl : -99999 ≤ c) (hu : c ≤ 999999) {i : Nat} (hi : i < 4) :
    (stampMetres c).getD (3 - i) 0 = if 10 ^ (3 + i) ≤ c.natAbs then digitOf c.natAbs (10 ^ (3 + i))
      else if c < 0 ∧ (i = 0 ∨ 10 ^ (2 + i) ≤ c.natAbs) then 0x2D else 0x20 := by
  unfold stampMetres signOf
  interval_cases i
  all_goals
    simp only [Nat.reducePow, Nat.reduceAdd, Nat.reduceSub, true_or, and_true, Nat.reduceEqDiff, false_or]
    split_ifs <;> simp <;> omega

/-- The ten cells (R73): the marker, the metres, the point, two decimals and the unit. -/
theorem stampText_eq {x : Int} (hl : -999994 ≤ x) (hu : x ≤ 9999994) (held saturated : Bool) :
    ∃ a b c d e, stampMetres (centimetres x) = [a, b, c, d, e] ∧ stampText x held saturated
      = [stampMarker held saturated x, a, b, c, d, e, 0x2E, digitOf (centimetres x).natAbs 10,
          digitOf (centimetres x).natAbs 1, 0x6D] := by
  have hlen := stampMetres_length (centimetres x)
  rw [stampText, stampNumber_eq hl hu]
  match stampMetres (centimetres x), hlen with
  | [a, b, c, d, e], _ => exact ⟨a, b, c, d, e, rfl, rfl⟩

theorem stampMarker_eq (x : Int) (held saturated : Bool) : stampMarker held saturated x
    = if held then 0x48 else if saturated && x == 9999994 then 0x3E
      else if saturated && x == -999994 then 0x3C else 0x20 := by
  have hboth (y : Int) : saturated = true ∧ x = y ↔ (saturated && x == y) = true := by
    rw [Bool.and_eq_true, beq_iff_eq]
  exact if_congr Iff.rfl rfl (if_congr (hboth 9999994) rfl (if_congr (hboth (-999994)) rfl rfl))

end Sys2Proof.Proofs

namespace Sys2Proof.Proofs

open Sys2Proof.Machine Sys2Proof.Safety Sys2Proof.Laws

/-- The bytes at the port within the picture, by the picture of the period (R42, R53). -/
theorem pictureByte_eq (s : State) (x y b : Nat) : pictureByte s x y b = match s.playout.video with
    | .none => none
    | .fill overlay => some (if overlay then
        composeByte s.cfg s.overlay x y (componentAt x b) (fillByte s.cfg (componentAt x b))
      else fillByte s.cfg (componentAt x b))
    | .store k => some (composeByte s.cfg s.overlay x y (componentAt x b)
        (Memory.read s.mem (storeBase s.cfg k + 64 + (y * s.cfg.width + x) * 2 + b))) := rfl

/-- Settles O15, part by part: a fresher store or an underrun, the outputs, the bytes at the port, glyphs, the stamp
text and the pixel rule. -/
theorem playoutShowsFreshestOrStalls : Obligations.PlayoutShowsFreshestOrStalls := by
  refine ⟨fun s hl hr => ⟨fun k hk hd => ?_, fun hn => ?_⟩, fun s => ⟨fun h => ?_, fun h => ?_, fun h => ?_⟩,
    fun s x y b => ⟨videoByte_outside, fun hx hy hb => ⟨fun hv => ?_, fun hv => ?_, fun k hv => ?_⟩,
      frameValid_iff s y, lineValid_iff s x y⟩,
    fun glyphs others code row col _ hcol => ⟨fun hc _ => glyphBit_loaded hc hcol, glyphBit_blank,
      fun hc => hc ▸ glyphBit_block, fun hc => glyphBit_fixed hc glyphs others row col⟩,
    fun x held saturated hl hu => ?_, fun cfg o x y c video => ⟨composeByte_outside, fun hs he hb => ?_, fun hs hb => ?_⟩⟩
  · intro t said shown
    obtain ⟨ht, hplayout, hreported⟩ := playout_shows hl hr hk hd
    have hshown : shown = put ((resumedActs k s).foldl act s) (shownAt k s) :=
      acts_ring_playout hr (working_of_lit hl) _ _
    obtain ⟨-, hcomplete, hfresher⟩ := mem_candidates.1 hk
    rw [hshown]
    exact ⟨ht, hcomplete, hfresher, hplayout, hreported⟩
  · intro counted filled
    refine ⟨fun ho hc => ?_, fun h => ?_⟩
    · intro t
      have hfilled : stallFilled s = { act s (.event (stallEvent s)) with
          playout := { counted with
            stallOpen := counted.stallOpen || true, stallLatch := counted.stallLatch || true
            shown := none, video := .fill true }
          ring := if s.playout.shown.isSome then unpinned s.ring else s.ring } := by
        rw [Bool.or_true, Bool.or_true, hc]
        exact (acts_ring_playout (as := [.event (stallEvent s)]) hr (working_of_lit hl) _ _).symm
      have ht : t = releasedFrom s.playout (stallFilled s) := by
        rw [hfilled]
        rfl
      rw [ht]
      exact playout_stalls hl hr hn ho hc
    · intro fills
      have hframe := playout_underruns hl hr hn h
      refine ⟨fun hf => ?_, fun hf => ?_⟩
      · rw [hframe, if_pos hf]
        have hturned : turned (missed s) = { s with
          playout := { counted with
            stallOpen := counted.stallOpen || false, stallLatch := counted.stallLatch || false
            shown := none, video := .fill true }
          ring := if s.playout.shown.isSome then unpinned s.ring else s.ring } := by
          rw [Bool.or_false, Bool.or_false]
          rfl
        rw [hturned]
        rfl
      · rw [hframe]
        exact if_neg (Bool.not_eq_true _ ▸ hf)
  · simp only [blockFrame, playoutFrame, h]
  · simp only [blockFrame, playoutFrame, h]
  · obtain h | h := h <;> simp only [blockFrame, playoutFrame, h]
  · rw [videoByte_inside (by simp [hv]) hx hy hb, pictureByte_eq, hv]
    rfl
  · rw [videoByte_inside (by simp [hv]) hx hy hb, pictureByte_eq, hv]
    rfl
  · rw [videoByte_inside (by simp [hv]) hx hy hb, pictureByte_eq, hv]
    rfl
  · intro text
    obtain ⟨hlow, hhigh⟩ := centimetres_bounds hl hu
    obtain ⟨hnear, hhalf⟩ := centimetres_nearest x
    obtain ⟨a, b, c, d, e, hmetres, htext⟩ := stampText_eq hl hu held saturated
    have htens : ∀ i < 4, _ := fun i hi => stampMetres_tens hlow hhigh (i := i) hi
    have hunits := stampMetres_units (centimetres x)
    have ht : text = _ := htext
    rw [hmetres] at htens hunits
    rw [ht]
    refine ⟨centimetres x, hnear, hhalf, rfl, stampMarker_eq x held saturated, rfl, rfl, rfl, rfl, hunits, fun i hi => ?_⟩
    refine Eq.trans ?_ (htens i hi)
    interval_cases i <;> rfl
  · rw [composeByte_banner hs ⟨he, hb⟩]
    exact paint_eq ..
  · rw [composeByte_cell hs hb]
    exact if_congr (or_congr Iff.rfl (and_congr Iff.rfl blinkOn_false)) rfl (paint_eq ..)
end Sys2Proof.Proofs

namespace Sys2Proof.Proofs

open Sys2Proof.Machine Sys2Proof.Safety Sys2Proof.Laws

/-! ## What no block changes at an output frame start

The moment, the configuration, the work areas, the waiting commands, the refusal, and the timer and count of output
frames. Entry to FAULTED starts the output timer only out of a load (R41); so with no load under way each operation of
a block keeps them, whether or not it meets a memory error. Each lemma `op_clock` carries `SameClock s t` over to
`SameClock s (op t)`. -/

/-- The fields that no block changes. -/
def clock (s : State) :=
  (s.now, s.cfg, s.areaBase, s.workBase, s.pending, s.refusalCode, s.refusalOffset, s.loading, s.playout.frames,
    s.playout.timer)

/-- With no load under way, these fields are kept. -/
def SameClock (s t : State) : Prop := s.loading = none → clock t = clock s

variable {s t u : State}

theorem SameClock.refl (s : State) : SameClock s s := fun _ => rfl

theorem SameClock.of_clock (h : SameClock s t) (hu : clock u = clock t) : SameClock s u := fun hl => hu.trans (h hl)

theorem SameClock.loading (h : SameClock s t) (hl : s.loading = none) : t.loading = none := by
  have hc := h hl
  simp only [clock, Prod.mk.injEq] at hc
  obtain ⟨-, -, -, -, -, -, -, hloading, -, -⟩ := hc
  rw [hloading, hl]

theorem onward_clock {k : State → State} (h : SameClock s t) (hk : SameClock s t → SameClock s (k t)) :
    SameClock s (onward t k) := by
  unfold onward
  split
  · exact h
  · exact hk h

theorem ite_clock {c : Prop} [Decidable c] (ht : SameClock s t) (hu : SameClock s u) :
    SameClock s (if c then t else u) := by
  split
  · exact ht
  · exact hu

/-! ### The shared operations -/

theorem faultBus_clock (s : State) : clock (faultBus s) = clock s := by
  obtain ⟨e, l, b, h⟩ := faultBus_frame s
  rw [h]
  rfl

/-- With no load under way, entry to FAULTED starts no timer. -/
theorem faultBlocks_clock (h : s.loading = none) : clock (faultBlocks s) = clock s := by
  have ht : startsTimers s = false := by rw [startsTimers, h]; rfl
  simp only [clock, faultBlocks, faultPlayout, ht, h, Bool.false_eq_true, if_false]

theorem enterFaulted_clock (h : SameClock s t) : SameClock s (enterFaulted t) := by
  intro hl
  refine Eq.trans ?_ (h hl)
  unfold enterFaulted
  split
  · rfl
  · rw [faultBus_clock, faultBlocks_clock (h.loading hl)]

theorem portWrite_clock {a : Nat} {bs : List Byte} (h : SameClock s t) : SameClock s (portWrite a bs t) := by
  obtain ⟨m, hw | hw, -⟩ := portWrite_cases a bs t <;> rw [hw]
  · exact h
  · exact enterFaulted_clock (t := { t with mem := m }) h

theorem advanceEventCursor_clock (s : State) : clock (advanceEventCursor s) = clock s := by
  obtain ⟨i, l, h, -⟩ := advanceEventCursor_list s
  rw [h]
  rfl

theorem writeEvent_clock {e : Event} (h : SameClock s t) : SameClock s (writeEvent e t) :=
  onward_clock (portWrite_clock h) fun h => onward_clock (portWrite_clock h) fun h =>
    h.of_clock (advanceEventCursor_clock _)

theorem emit_clock {e : Event} (h : SameClock s t) : SameClock s (emit e t) := by
  unfold emit
  split
  · exact h
  · exact h
  · exact h
  all_goals
    split
    · exact enterFaulted_clock h
    · exact ite_clock (writeEvent_clock h) h

theorem emitAll_clock : ∀ {es : List Event} {t : State}, SameClock s t → SameClock s (emitAll es t)
  | [], _, h => h
  | _ :: es, _, h => emitAll_clock (es := es) (emit_clock h)

theorem lampDo_clock {r : Lamp × List Event} (h : SameClock s t) : SameClock s (lampDo r t) :=
  emitAll_clock (t := { t with lamp := r.1 }) h

theorem complete_clock {slot code w0 w1 : Nat} (h : SameClock s t) : SameClock s (complete slot code w0 w1 t) :=
  ite_clock h <| onward_clock (portWrite_clock h) fun h => onward_clock (portWrite_clock h) fun h =>
    onward_clock (portWrite_clock h) id

/-! ### The head bus unit -/

theorem gainWriteEnd_clock (v : Nat) (o : BusOutcome) (s : State) : clock (gainWriteEnd v o s).1 = clock s := by
  obtain ⟨e, b, h⟩ := gainWriteEnd_frame v o s
  rw [h]
  rfl

theorem pollEnd_clock (j : Nat) (r : Bool) (o : BusOutcome) (bs : List Byte) (s : State) :
    clock (pollEnd j r o bs s).1 = clock s := by
  obtain ⟨l, b, h⟩ := pollEnd_frame j r o bs s
  rw [h]
  rfl

theorem hostTransferEnd_clock {x : HostTransfer} {o : BusOutcome} {acked : Nat} {read : List Byte} (h : SameClock s t) :
    SameClock s (hostTransferEnd x o acked read t) :=
  have h' : SameClock s { t with bus := { t.bus with queue := t.bus.queue.tail } } := h
  ite_clock (onward_clock (ite_clock h' (portWrite_clock h')) fun h => complete_clock h) (complete_clock h')

theorem txnEnd_clock {next : BusState} {o : BusOutcome} {acked : Nat} {read : List Byte} (h : SameClock s t) :
    SameClock s (txnEnd next o acked read t) := by
  unfold txnEnd
  split
  · exact h
  · split
    · exact emitAll_clock (h.of_clock (gainWriteEnd_clock _ _ _))
    · exact emitAll_clock (h.of_clock (pollEnd_clock _ _ _ _ _))
    · exact hostTransferEnd_clock h

theorem takeHost_clock {x : HostTransfer} (h : SameClock s t) : SameClock s (takeHost x t) := by
  unfold takeHost
  split
  · split
    · exact enterFaulted_clock h
    · exact h
  · exact h

theorem takeNext_clock (h : SameClock s t) (hu : takeNext t = some u) : SameClock s u := by
  unfold takeNext at hu
  split at hu
  · exact Option.some.inj hu ▸ h
  · split at hu
    · exact Option.some.inj hu ▸ h
    · split at hu
      · cases hu
      · exact Option.some.inj hu ▸ takeHost_clock h

theorem serveBus_clock : ∀ {fuel : Nat} {t : State}, SameClock s t → SameClock s (serveBus fuel t)
  | 0, _, h => h
  | fuel + 1, _, h => by
    unfold serveBus
    split
    · split
      · exact h
      · rename_i hu
        exact ite_clock (serveBus_clock (txnEnd_clock (takeNext_clock h hu))) (takeNext_clock h hu)
    · exact h

theorem busFrame_clock (h : SameClock s t) : SameClock s (busFrame t) := serveBus_clock h

/-! ### The capture unit at a release -/

theorem writeFillingHeader_clock {k : Nat} {seq : Word} (h : SameClock s t) : SameClock s (writeFillingHeader k seq t) :=
  onward_clock (portWrite_clock h) fun h => onward_clock (portWrite_clock h) fun h => portWrite_clock h

theorem triggerStart_clock {k : Nat} (h : SameClock s t) : SameClock s (triggerStart k t) := by
  unfold triggerStart
  split
  · exact h
  · exact onward_clock (writeFillingHeader_clock h) fun h => onward_clock (lampDo_clock h) id

theorem reportRelease_clock (h : SameClock s t) : SameClock s (reportRelease t) := by
  unfold reportRelease
  split
  · split
    · exact triggerStart_clock h
    · exact h
  · exact h

/-! ### Playout -/

theorem turnToFill_clock (h : SameClock s t) : SameClock s (turnToFill t) := by
  unfold turnToFill
  split
  · exact h
  · exact reportRelease_clock h

theorem underrun_clock (h : SameClock s t) : SameClock s (underrun t) := by
  unfold underrun
  refine ite_clock (turnToFill_clock h) (ite_clock ?_ (ite_clock (turnToFill_clock h) (ite_clock (turnToFill_clock h) ?_)))
  · exact onward_clock (emit_clock h) fun h => turnToFill_clock h
  · split <;> exact h

theorem pinStore_ring {k : Nat} (h : pinStore k t = some u) : ∃ r, u = { t with ring := r } := by
  unfold pinStore at h
  split at h
  · exact ⟨_, (Option.some.inj h).symm⟩
  · cases h

theorem showStore_clock {k : Nat} {r : List RingEntry} (h : SameClock s t) :
    SameClock s (showStore k { t with ring := r } t) :=
  have said {c : Prop} [Decidable c] {e : Event} {v : State} (hv : SameClock s v) :
      SameClock s (if c then emit e v else v) := ite_clock (emit_clock hv) hv
  ite_clock (onward_clock (said h) fun h => reportRelease_clock h) (said h)

theorem selectShown_clock : ∀ {fuel : Nat} {refused : List Nat} {t : State}, SameClock s t →
    SameClock s (selectShown fuel refused t)
  | 0, _, _, h => underrun_clock h
  | fuel + 1, _, _, h => by
    unfold selectShown
    split
    · exact underrun_clock h
    · split
      · rename_i hp
        obtain ⟨r, rfl⟩ := pinStore_ring hp
        exact showStore_clock h
      · exact selectShown_clock h

theorem playoutFrame_clock (h : SameClock s t) : SameClock s (playoutFrame t) := by
  unfold playoutFrame
  split
  · exact selectShown_clock h
  · exact selectShown_clock h
  all_goals exact h

/-! ### The overlay unit -/

theorem finishEdit_clock {e : Request} {rest : List Request} {buf : Option (List Byte)} (h : SameClock s t) :
    SameClock s (finishEdit e rest buf t) := complete_clock h

theorem applyEdits_clock : ∀ {es : List Request} {t : State}, SameClock s t → SameClock s (applyEdits es t)
  | [], _, h => h
  | _ :: _, _, h => by
    unfold applyEdits
    split
    · exact onward_clock (finishEdit_clock h) applyEdits_clock
    · split
      · exact enterFaulted_clock h
      · exact onward_clock (finishEdit_clock h) applyEdits_clock

theorem overlayFrame_clock (h : SameClock s t) : SameClock s (overlayFrame t) :=
  ite_clock (onward_clock (applyEdits_clock h) id) h

/-! ### Every block -/

theorem blockFrame_clock {b : FrameBlock} (h : SameClock s t) : SameClock s (blockFrame b t) := by
  cases b with
  | playout => exact playoutFrame_clock h
  | lamp => exact lampDo_clock h
  | headBus => exact busFrame_clock h
  | overlay => exact overlayFrame_clock h
  | link => exact ite_clock h (ite_clock h h)

theorem runBlocks_clock : ∀ {bs : List FrameBlock} {t : State}, SameClock s t → SameClock s (runBlocks bs t)
  | [], _, h => h
  | _ :: bs, _, h => runBlocks_clock (bs := bs) (blockFrame_clock h)

end Sys2Proof.Proofs

namespace Sys2Proof.Proofs

open Sys2Proof.Machine Sys2Proof.Safety Sys2Proof.Laws

/-! ## The order of the blocks (log entry 8) -/

theorem nodup_eraseDups {α : Type} [BEq α] [LawfulBEq α] : ∀ l : List α, l.eraseDups.Nodup
  | [] => List.nodup_nil
  | a :: as => by
    rw [List.eraseDups_cons, List.nodup_cons, List.mem_eraseDups]
    exact ⟨by simp, nodup_eraseDups (as.filter fun b => !b == a)⟩
  termination_by l => l.length
  decreasing_by exact Nat.lt_succ_of_le (List.length_filter_le _ _)

theorem eraseDups_of_nodup {α : Type} [BEq α] [LawfulBEq α] : ∀ {l : List α}, l.Nodup → l.eraseDups = l
  | [], _ => rfl
  | a :: as, h => by
    obtain ⟨ha, has⟩ := List.nodup_cons.1 h
    have hf : as.filter (fun b => !b == a) = as := List.filter_eq_self.2 fun b hb => by
      simp [ne_of_mem_of_not_mem hb ha]
    rw [List.eraseDups_cons, hf, eraseDups_of_nodup has]

theorem mem_blockOrder (order : List FrameBlock) (b : FrameBlock) : b ∈ blockOrder order := by
  rw [blockOrder, List.mem_eraseDups]
  exact List.mem_append_right _ (by cases b <;> decide)

theorem blockOrder_of_nodup {order : List FrameBlock} (h : order.Nodup) : ∃ rest, blockOrder order = order ++ rest :=
  ⟨_, by rw [blockOrder, List.eraseDups_append, eraseDups_of_nodup h]⟩

theorem runBlocks_foldl : ∀ (bs : List FrameBlock) (s : State), runBlocks bs s = bs.foldl (fun u b => blockFrame b u) s
  | [], _ => rfl
  | b :: bs, s => runBlocks_foldl bs (blockFrame b s)

/-! ## The status record of an output frame start (R172) -/

theorem enterFaulted_not_working (s : State) : ¬ Working (enterFaulted s) := by
  unfold Working
  rw [enterFaulted_part]
  split <;> decide

/-- A write after which the part still works has stored every byte. -/
theorem writeFrom_working : ∀ {bs : List Byte} {a : Nat} {s : State}, Working (writeFrom a bs s) →
    writeFrom a bs s = { s with mem := storeBytes s.mem a bs }
  | [], _, _, _ => rfl
  | b :: bs, a, s, h => by
    rw [writeFrom] at h ⊢
    split at h
    · rename_i hok
      rw [if_pos hok]
      exact writeFrom_working h
    · exact absurd h (enterFaulted_not_working s)

/-- The record that the status writer writes in `s` after a start that found `before`. -/
def frameRecord (before s : State) : List Byte := statusRecord s.part (published before s)

theorem statusFrame_write {before s : State} (hw : Working s) :
    statusFrame before s = portWrite (s.areaBase + 0x100) (frameRecord before s) s := by
  obtain hp | hp | hp := hw <;> simp only [statusFrame, frameRecord, hp]

theorem statusFrame_silent {before s : State} (hw : ¬ Working s) : statusFrame before s = s := by
  unfold Working at hw
  cases hp : s.part <;> simp [hp] at hw <;> simp only [statusFrame, hp]

theorem statusFrame_stored {before s : State} (hw : Working (statusFrame before s)) :
    statusFrame before s = { s with mem := storeBytes s.mem (s.areaBase + 0x100) (frameRecord before s) } := by
  by_cases h : Working s
  · rw [statusFrame_write h, portWrite, if_pos (portOpen_of_working h)] at hw ⊢
    exact writeFrom_working hw
  · rw [statusFrame_silent h] at hw
    exact absurd hw h

theorem statusFrame_regions {before s : State} (hw : Working s) (hr : RegionsOk s) :
    statusFrame before s = { s with mem := storeBytes s.mem (s.areaBase + 0x100) (frameRecord before s) } := by
  obtain ⟨-, he, ha, -⟩ := hr
  rw [statusFrame_write hw]
  exact portWrite_ok (portOpen_of_working hw) he (by rw [frameRecord, statusRecord_length]; omega)

theorem statusFrame_clock {before s t : State} (h : SameClock s t) : SameClock s (statusFrame before t) := by
  by_cases hw : Working t
  · rw [statusFrame_write hw]
    exact portWrite_clock h
  · rwa [statusFrame_silent hw]

/-- The record shows neither memory nor the scan state. -/
theorem frameRecord_scanned (before s : State) (m : List Host.Cell) (b : Bool) :
    frameRecord before { s with mem := m, list := { s.list with scanning := b } } = frameRecord before s := rfl

/-! ## The whole start (R14, R41, R172) -/

/-- The state after the work of every block. -/
def workedAt (e : Nat) (order : List FrameBlock) (s : State) : State := runBlocks (blockOrder order) (countFrame e s)

theorem frameStart_eq (e : Nat) (order : List FrameBlock) (s : State) :
    frameStart e order s = scanEvent (statusFrame (countFrame e s) (workedAt e order s)) := rfl

theorem exec_outputFrameStart {e : Nat} {s : State} (h : s.playout.timer = some e) (order : List FrameBlock) :
    exec (.outputFrameStart order) s = .next (frameStart e order s) := by
  simp only [exec, execOutputFrameStart, h]

theorem frameStart_regions {e : Nat} {order : List FrameBlock} {s : State} (hw : Working (workedAt e order s))
    (hr : RegionsOk (workedAt e order s)) : frameStart e order s =
      let worked := workedAt e order s
      { worked with
        mem := storeBytes worked.mem (worked.areaBase + 0x100) (frameRecord (countFrame e s) worked)
        list := { worked.list with
          scanning := worked.list.scanning || decide (worked.part = .running ∧ worked.list.listState = .active) } } := by
  rw [frameStart_eq, statusFrame_regions hw hr, scanEvent_eq, ← Bool.decide_and]

theorem frameStart_faulted {e : Nat} {order : List FrameBlock} {s : State} (hp : (workedAt e order s).part = .faulted) :
    frameStart e order s = workedAt e order s := by
  rw [frameStart_eq, statusFrame_silent (by simp [Working, hp])]
  exact if_neg (by simp [hp])

theorem frameStart_clock {e : Nat} {order : List FrameBlock} {s : State} (hl : s.loading = none) :
    clock (frameStart e order s) = clock (countFrame e s) := by
  have h := statusFrame_clock (before := countFrame e s) (runBlocks_clock (bs := blockOrder order) (.refl (countFrame e s)))
  rw [frameStart_eq, scanEvent_eq]
  exact h hl

theorem scanEvent_working {s : State} (h : Working (scanEvent s)) : Working s := by
  rw [scanEvent_eq] at h
  exact h

/-- The record in memory, wherever the part still works after the status writer and the scan event. -/
theorem scanned_record {before w : State} (hm : Memory.wf w.mem = true) (hw : Working (scanEvent (statusFrame before w))) :
    let t := scanEvent (statusFrame before w)
    Memory.readList t.mem (t.areaBase + 0x100) 256 = frameRecord before t := by
  have hread := readList_storeBytes_same (bs := frameRecord before w) (a := w.areaBase + 0x100) hm
  have hlen : (frameRecord before w).length = 256 := statusRecord_length _ _
  rw [hlen] at hread
  rw [statusFrame_stored (scanEvent_working hw), scanEvent_eq]
  simp only [frameRecord_scanned]
  exact hread

theorem frameStart_record {e : Nat} {order : List FrameBlock} {s : State} (hm : Memory.wf s.mem = true)
    (hw : Working (frameStart e order s)) :
    let t := frameStart e order s
    Memory.readList t.mem (t.areaBase + 0x100) 256 = frameRecord (countFrame e s) t :=
  have hkeeps : Keeps (countFrame e s) (workedAt e order s) := runBlocks_keeps (.refl _)
  scanned_record (hkeeps.wf hm) hw

theorem scanEvent_scans {s : State} (hp : (scanEvent s).part = .running) (hl : (scanEvent s).list.listState = .active) :
    (scanEvent s).list.scanning = true := by
  rw [scanEvent_eq] at hp hl ⊢
  simp only at hp hl ⊢
  simp [hp, hl]

end Sys2Proof.Proofs

namespace Sys2Proof.Proofs

open Sys2Proof.Machine Sys2Proof.Safety Sys2Proof.Laws

/-! ## The lamp, head bus and link units at an output frame start (R81, R136, R151, R152) -/

/-- A stale condition, as the lamp unit's rule gives it (R81, R82). -/
theorem lampStale_eq (part : PartState) (cfg : Cfg) (cause : StaleCause) (l : Lamp) :
    lampStale part cfg cause l = staled part cfg cause l := by
  unfold lampStale staled recomputeCeiling
  simp only [thermalCeiling, if_true, eq_comm (a := cfg.floor)]
  split
  · rfl
  · split <;> rfl

theorem lampAge_eq (part : PartState) (cfg : Cfg) (l : Lamp) : lampAge part cfg l =
    let aged := { l with tempAge := min 65535 (l.tempAge + 1) }
    if aged.tempAge = 101 then staled part cfg .age aged else (aged, []) := by
  unfold lampAge
  simp only [lampStale_eq]

/-- In FAULTED no event is written or missed (R10). -/
theorem events_faulted {s : State} (hp : s.part = .faulted) (es : List Event) : (events es).foldl act s = s := by
  have hact (e : Event) : act s (.event e) = s := by simp only [act, emit, hp]
  induction es with
  | nil => rfl
  | cons e es ih => rw [events, List.map_cons, List.foldl_cons, hact]; exact ih

/-- A change of the lamp unit with its events, the events first, wherever the part works or is in FAULTED. -/
theorem lampDo_events {r : Lamp × List Event} {s : State} (h : Working s ∧ RegionsOk s ∨ s.part = .faulted) :
    lampDo r s = { (events r.2).foldl act s with lamp := r.1 } := by
  obtain ⟨hw, hr⟩ | hp := h
  · have hf := (acted_acts (as := events r.2) hr hw).frame
    rw [lampDo_regions hr hw]
    generalize (events r.2).foldl act s = w at hf ⊢
    rw [hf]
    rfl
  · rw [lampDo, emitAll_eq, events_faulted hp, events_faulted (s := { s with lamp := r.1 }) hp]

/-- A poll slot at an output frame start: its age, and in RUNNING and HALTING its countdown and due flag (R151, R152). -/
theorem countedPoll_eq (lit : Bool) (p : Poll) : (if lit then countPoll (agePoll p) else agePoll p) =
    { p with
      slot := { p.slot with age := min 65535 (p.slot.age + 1) }
      countdown := if lit && p.entry.enable then (if p.countdown ≤ 1 then p.entry.period else p.countdown - 1)
        else p.countdown
      due := p.due || (lit && p.entry.enable && decide (p.countdown ≤ 1)) } := by
  cases lit
  · simp [agePoll]
  · cases he : p.entry.enable
    · simp [agePoll, countPoll, he]
    · by_cases hc : p.countdown ≤ 1 <;> simp [agePoll, countPoll, he, hc]

/-- The head bus unit looks for work wherever the part works or is in FAULTED. -/
theorem busServe_anywhere {s : State} (h : Working s ∧ RegionsOk s ∨ s.part = .faulted) (hb : BusReachable s) :
    busServe s = served s := by
  obtain ⟨-, hr⟩ | hp := h
  · exact busServe_served hr hb
  · rw [busServe_other (by simp [hp]), served, if_neg (by simp [hp])]

theorem countedPolls_eq (lit : Bool) (ps : List Poll) :
    (if lit then (ps.map agePoll).map countPoll else ps.map agePoll)
      = ps.map fun p => if lit then countPoll (agePoll p) else agePoll p := by
  cases lit
  · rfl
  · exact List.map_map

theorem linkFrame_counts {s : State} (ha : linkActive s = true) (hk : s.cfg.cadenceK ≠ 0)
    (hc : s.link.cadence + 1 < s.cfg.cadenceK) :
    linkFrame s = { s with link := { s.link with cadence := s.link.cadence + 1 } } := by
  have hn : statusNext s = false := by simp [statusNext, Nat.not_le.2 hc]
  rw [linkFrame, if_neg (by simp [hn]), if_pos ⟨ha, hk⟩]

theorem linkFrame_builds {s : State} (ha : linkActive s = true) (hk : s.cfg.cadenceK ≠ 0)
    (hc : s.cfg.cadenceK ≤ s.link.cadence + 1) : exec .headStatus s = .next (linkFrame s) := by
  have hn : statusNext s = true := by simp [statusNext, ha, hk, hc]
  simp only [exec, execHeadStatus, linkFrame, hn, if_true]

theorem linkFrame_same {s : State} (h : linkActive s = false ∨ s.cfg.cadenceK = 0) : linkFrame s = s := by
  obtain h | h := h <;> simp [linkFrame, statusNext, h]

end Sys2Proof.Proofs

namespace Sys2Proof.Proofs

open Sys2Proof.Machine Sys2Proof.Safety Sys2Proof.Laws

/-! ## The pending edits (R63, R64)

An edit neither reads nor changes the list of pending edits, so the list can be emptied edit by edit, as the model does,
or at the end, as the statement does. -/

/-- The overlay unit with another list of pending edits. -/
def Overlay.pend (es : List Request) (o : Overlay) : Overlay := { o with edits := es }

/-- An edit's result with another list of pending edits. -/
def EditResult.pend (es : List Request) (r : EditResult) : EditResult := { r with overlay := Overlay.pend es r.overlay }

section

variable (es : List Request) (cfg : Cfg) (args buf : List Byte) (o : Overlay)

theorem editCells_pend (clamped : Bool) (cells : List (Nat × Nat × Cell)) :
    editCells cfg clamped cells (Overlay.pend es o) = EditResult.pend es (editCells cfg clamped cells o) := by
  unfold editCells
  split <;> rfl

theorem clearLayer_pend (n : Nat) : clearLayer cfg n (Overlay.pend es o) = EditResult.pend es (clearLayer cfg n o) := by
  unfold clearLayer
  split <;> rfl

theorem applyWrite_pend : applyWrite cfg args (Overlay.pend es o) = EditResult.pend es (applyWrite cfg args o) := by
  unfold applyWrite
  simp only
  split
  case h_1 | h_3 =>
    split
    · exact editCells_pend es cfg o _ _
    · rfl
  case h_2 => split <;> rfl
  case h_4 => exact clearLayer_pend es cfg o _
  case h_5 => rfl

theorem appendFifo_pend (chars : List Byte) :
    appendFifo chars (Overlay.pend es o) = Overlay.pend es (appendFifo chars o) := by
  simp only [appendFifo, Overlay.pend]

theorem styleBannerText_pend :
    styleBannerText args (Overlay.pend es o) = EditResult.pend es (styleBannerText args o) := by
  unfold styleBannerText
  simp only
  split
  · rfl
  · split
    · exact congrArg (EditResult.mk · _ 0 0) (appendFifo_pend es { o with fifo := [], pan := 0 } _)
    · exact congrArg (EditResult.mk · _ 0 0) (appendFifo_pend es o _)

theorem applyStyle_pend : applyStyle args (Overlay.pend es o) = EditResult.pend es (applyStyle args o) := by
  unfold applyStyle
  split
  case h_1 => unfold stylePalette; simp only; split <;> rfl
  case h_2 => unfold styleMasks; simp only; split <;> rfl
  case h_4 => exact styleBannerText_pend es args o
  case h_6 => unfold styleMarkAttribute; split <;> rfl
  all_goals rfl

theorem applyEdit_pend (e : Request) (buf : Option (List Byte)) :
    applyEdit cfg e buf (Overlay.pend es o) = EditResult.pend es (applyEdit cfg e buf o) := by
  unfold applyEdit
  split
  · cases buf <;> rfl
  · split
    · exact applyStyle_pend es e.args o
    · cases buf with
      | none => exact applyWrite_pend es cfg e.args o
      | some b => exact editCells_pend es cfg o _ _

end

/-- One edit applied with the bytes of its buffer, and answered (R13, R63). -/
def edited (cfg : Cfg) (u : State) (e : Request) : State :=
  let r := applyEdit cfg e ((editBuffer e).map fun b => Memory.readList u.mem b.1 b.2) u.overlay
  answered e.slot r.code r.w0 r.w1 { u with overlay := r.overlay }

/-- The state with another list of pending edits. -/
def pending (es : List Request) (s : State) : State := { s with overlay := Overlay.pend es s.overlay }

/-- The slots and buffers of edits are in reach. -/
def EditsReachable (es : List Request) : Prop :=
  (∀ e ∈ es, e.slot + 64 ≤ 2 ^ 32) ∧ ∀ e ∈ es, ∀ b, editBuffer e = some b → b.1 + b.2 ≤ 2 ^ 32

theorem edited_acted (cfg : Cfg) (s : State) (e : Request) :
    ∃ o a, Acted s a ∧ edited cfg s e = { a with overlay := o } := by
  let r := applyEdit cfg e ((editBuffer e).map fun b => Memory.readList s.mem b.1 b.2) s.overlay
  exact ⟨r.overlay, answered e.slot r.code r.w0 r.w1 s,
    ⟨rfl, ⟨_, _, _, rfl⟩, fun h => storeBytes_wf (storeBytes_wf (storeBytes_wf h)), id⟩, rfl⟩

theorem edited_ok {cfg : Cfg} {s : State} {e : Request} (hw : Working s) (hr : RegionsOk s) :
    Working (edited cfg s e) ∧ RegionsOk (edited cfg s e) := by
  obtain ⟨o, a, ha, he⟩ := edited_acted cfg s e
  rw [he]
  exact ⟨ha.working hw, ha.regionsOk hr⟩

/-- The oldest edit where its slot is in reach. -/
theorem finishEdit_edited {s : State} {e : Request} {es : List Request} (hw : Working s) (hr : RegionsOk s)
    (hs : e.slot + 64 ≤ 2 ^ 32) :
    finishEdit e es ((editBuffer e).map fun b => Memory.readList s.mem b.1 b.2) (pending (e :: es) s)
      = pending es (edited s.cfg s e) := by
  have hpend := applyEdit_pend (e :: es) s.cfg s.overlay e ((editBuffer e).map fun b => Memory.readList s.mem b.1 b.2)
  have hfields : finishEdit e es ((editBuffer e).map fun b => Memory.readList s.mem b.1 b.2) (pending (e :: es) s)
      = let r := EditResult.pend (e :: es)
          (applyEdit s.cfg e ((editBuffer e).map fun b => Memory.readList s.mem b.1 b.2) s.overlay)
        complete e.slot r.code r.w0 r.w1 { s with overlay := Overlay.pend es r.overlay } := by
    rw [← hpend]
    rfl
  rw [hfields]
  exact complete_ok (portOpen_of_working hw) hr.2.1 (by omega)

theorem applyEdits_edited : ∀ {es : List Request} {s : State}, Working s → RegionsOk s → EditsReachable es →
    applyEdits es (pending es s) = pending [] (es.foldl (edited s.cfg) s)
  | [], _, _, _, _ => rfl
  | e :: es, s, hw, hr, ⟨hslots, hbufs⟩ => by
    obtain ⟨hw', hr'⟩ := edited_ok (cfg := s.cfg) (e := e) hw hr
    have hfinish := finishEdit_edited (es := es) hw hr (hslots e List.mem_cons_self)
    have hrest : onward (pending es (edited s.cfg s e)) (applyEdits es) = pending [] (es.foldl (edited s.cfg) (edited s.cfg s e)) := by
      rw [onward_of_ne (ne_faulted_of_working (s := pending es (edited s.cfg s e)) hw')]
      exact applyEdits_edited hw' hr' ⟨fun x hx => hslots x (List.mem_cons_of_mem _ hx),
        fun x hx => hbufs x (List.mem_cons_of_mem _ hx)⟩
    rw [List.foldl_cons, ← hrest, ← hfinish, applyEdits]
    split
    · rename_i hb
      rw [hb]
      rfl
    · rename_i a n hb
      have hread : portRead a n (pending (e :: es) s) = some (Memory.readList s.mem a n) :=
        portRead_ok (s := pending (e :: es) s) (portOpen_of_working hw) hr.2.1 (hbufs e List.mem_cons_self _ hb)
      rw [hread, hb]
      rfl

end Sys2Proof.Proofs

namespace Sys2Proof.Proofs

open Sys2Proof.Machine Sys2Proof.Safety Sys2Proof.Laws

/-! ## Blink, banner and stamp (R62, R70, R72 to R74) -/

theorem putCells_append : ∀ (ps qs : List (Nat × Cell)) (cells : List Cell),
    putCells (ps ++ qs) cells = putCells qs (putCells ps cells)
  | [], _, _ => rfl
  | (i, c) :: ps, qs, cells => putCells_append ps qs (cells.set i c)

/-- A row of cells written from an index on: the new cells in their places, every other cell as before. -/
theorem putCells_row (f : Nat → Cell) (b : Nat) {cells : List Cell} {i : Nat} {c : Cell} (h : cells[i]? = some c) :
    ∀ n, (putCells ((List.range n).map fun j => (b + j, f j)) cells)[i]?
      = some (if b ≤ i ∧ i < b + n then f (i - b) else c)
  | 0 => by rw [if_neg (by omega)]; exact h
  | n + 1 => by
    have ih := putCells_row f b h n
    rw [List.range_succ, List.map_append, putCells_append]
    by_cases hi : b + n = i
    · subst hi
      rw [if_pos (by omega), Nat.add_sub_cancel_left]
      exact List.getElem?_set_self (List.getElem?_eq_some_iff.1 ih).1
    · refine (List.getElem?_set_ne hi).trans (ih.trans (congrArg some (if_congr ?_ rfl rfl)))
      omega

/-- The cells of the stamp field (R72, R74). -/
def stampCell (cfg : Cfg) (c : Chainage) (o : Overlay) (j : Nat) : Cell :=
  if cfg.stampEnable then
    { ch := (stampText c.x c.isHeld c.saturated).getD j 0x20, attr := if 0 < o.flash then o.markAttr else cfg.stampAttr
      blink := false, layer := 3 }
  else { ch := 0x20, attr := attrOf o.key o.key, blink := false, layer := 3 }

theorem writeStamp_cells {cfg : Cfg} {x : Chainage} {o : Overlay} {i : Nat} {c : Cell} (h : o.cells[i]? = some c) :
    (writeStamp cfg x o).cells[i]? = some (if inStampField cfg i then
      stampCell cfg x o (i - cellIndex cfg.stampRow cfg.stampCol) else c) := by
  refine (putCells_row (stampCell cfg x o) (cellIndex cfg.stampRow cfg.stampCol) h 10).trans (congrArg some ?_)
  exact if_congr (by simp [inStampField]) rfl rfl

/-- The banner moves: it is enabled and its FIFO holds a character. -/
def bannerMoves (cfg : Cfg) (o : Overlay) : Bool := cfg.bannerEnable && decide (o.fifo ≠ [])

/-- The pan offset, moved, before a character leaves. -/
def bannerPan (cfg : Cfg) (o : Overlay) : Nat := o.pan + if bannerMoves cfg o then o.scrollSpeed else 0

/-- The first character has left the picture. -/
def bannerLeaves (cfg : Cfg) (o : Overlay) : Bool := bannerMoves cfg o && decide (16 * cfg.scale ≤ bannerPan cfg o)

/-- The FIFO after the move. -/
def bannerFifo (cfg : Cfg) (o : Overlay) : List Byte := if bannerLeaves cfg o then o.fifo.tail else o.fifo

theorem advanceBanner_eq (cfg : Cfg) (o : Overlay) : advanceBanner cfg o = { o with
    fifo := bannerFifo cfg o
    bannerLine := (bannerFifo cfg o).take (visibleCols cfg + 1)
    pan := if bannerLeaves cfg o then (if bannerFifo cfg o = [] then 0 else bannerPan cfg o - 16 * cfg.scale)
      else bannerPan cfg o } := by
  by_cases hm : cfg.bannerEnable = true ∧ o.fifo ≠ []
  · have hmoves : bannerMoves cfg o = true := by simp [bannerMoves, hm]
    have hpan : bannerPan cfg o = o.pan + o.scrollSpeed := by rw [bannerPan, if_pos hmoves]
    by_cases hl : 16 * cfg.scale ≤ o.pan + o.scrollSpeed
    · have hleaves : bannerLeaves cfg o = true := by
        rw [bannerLeaves, hmoves, hpan]
        exact decide_eq_true hl
      simp only [advanceBanner, cellWidth, hm, hl, ne_eq, not_false_eq_true, and_self, bannerFifo, hleaves, if_true, hpan]
    · have hleaves : bannerLeaves cfg o = false := by
        rw [bannerLeaves, hmoves, hpan]
        exact decide_eq_false hl
      simp only [advanceBanner, cellWidth, hm, hl, ne_eq, not_false_eq_true, and_self, if_true, bannerFifo, hleaves, hpan, Bool.false_eq_true, if_false]
  · have hmoves : bannerMoves cfg o = false := by simpa [bannerMoves] using hm
    have hpan : bannerPan cfg o = o.pan := by rw [bannerPan, hmoves]; rfl
    have hleaves : bannerLeaves cfg o = false := by rw [bannerLeaves, hmoves]; rfl
    simp only [advanceBanner, if_neg hm, bannerFifo, hleaves, hpan, Bool.false_eq_true, if_false]

theorem setsBlink_eq (e : Request) : setsBlink e = decide (e.kind = 11 ∧ u8 e.args 0 = 2) := by
  rw [Bool.decide_and]
  rfl

/-- The blink counter after an output frame start (R62). -/
def blinkAfter (es : List Request) (o : Overlay) : Nat :=
  if es.any fun e => decide (e.kind = 11 ∧ u8 e.args 0 = 2) then o.blinkCounter
  else if o.blinkPeriod = 0 then 0 else (o.blinkCounter + 1) % o.blinkPeriod

theorem blinked_eq (es : List Request) (o : Overlay) :
    (if es.any setsBlink then o else advanceBlink o) = { o with blinkCounter := blinkAfter es o } := by
  have hany : (es.any fun e => decide (e.kind = 11 ∧ u8 e.args 0 = 2)) = es.any setsBlink :=
    congrArg es.any (funext fun e => (setsBlink_eq e).symm)
  rw [blinkAfter, hany]
  cases es.any setsBlink <;> rfl

/-! ## The whole of the overlay unit's work (R63) -/

theorem edits_frame (cfg : Cfg) : ∀ (es : List Request) (s : State),
    let d := es.foldl (edited cfg) s
    d = { s with mem := d.mem, attention := d.attention, overlay := d.overlay }
  | [], _ => rfl
  | e :: es, s => edits_frame cfg es (edited cfg s e)

/-- The overlay unit after blink, banner and stamp, from the unit after the edits `es`. -/
def overlayAfter (cfg : Cfg) (x : Chainage) (es : List Request) (o : Overlay) : Overlay :=
  writeStamp cfg x (advanceBanner cfg { Overlay.pend [] o with blinkCounter := blinkAfter es o })

theorem overlayFrame_eq {s : State} (hw : Working s) (hr : RegionsOk s) (he : EditsReachable s.overlay.edits) :
    let done := s.overlay.edits.foldl (edited s.cfg) s
    overlayFrame s = { s with mem := done.mem, attention := done.attention
                              overlay := overlayAfter s.cfg s.chainage s.overlay.edits done.overlay } := by
  intro done
  have hpart : s.part.lit = true ∨ s.part = .halted := by
    obtain h | h | h := hw <;> simp [h, PartState.lit]
  have hedits : applyEdits s.overlay.edits s = pending [] done := applyEdits_edited (s := s) hw hr he
  have hframe : done = { s with mem := done.mem, attention := done.attention, overlay := done.overlay } :=
    edits_frame s.cfg s.overlay.edits s
  have hwork : (pending [] done).part ≠ .faulted := by
    rw [hframe]
    exact ne_faulted_of_working hw
  unfold overlayFrame
  rw [if_pos hpart]
  simp only
  rw [hedits, onward_of_ne hwork, blinked_eq]
  generalize done = d at hframe
  rw [hframe]
  rfl

theorem overlayAfter_cells {cfg : Cfg} {x : Chainage} {es : List Request} {o : Overlay} {i : Nat} {c : Cell}
    (h : o.cells[i]? = some c) : (overlayAfter cfg x es o).cells[i]? = some (if inStampField cfg i then
      stampCell cfg x o (i - cellIndex cfg.stampRow cfg.stampCol) else c) := by
  rw [overlayAfter, advanceBanner_eq]
  exact writeStamp_cells h

theorem overlayAfter_eq (cfg : Cfg) (x : Chainage) (es : List Request) (o : Overlay) : overlayAfter cfg x es o = { o with
    edits := [], cells := (overlayAfter cfg x es o).cells, fifo := bannerFifo cfg o
    bannerLine := (bannerFifo cfg o).take (visibleCols cfg + 1)
    pan := if bannerLeaves cfg o then (if bannerFifo cfg o = [] then 0 else bannerPan cfg o - 16 * cfg.scale)
      else bannerPan cfg o
    blinkCounter := blinkAfter es o, flash := o.flash - 1 } := by
  rw [overlayAfter, advanceBanner_eq]
  rfl

theorem overlayFrame_silent {s : State} (h : s.part ∈ [.off, .loading, .faulted]) : overlayFrame s = s := by
  refine if_neg ?_
  simp only [List.mem_cons, List.not_mem_nil, or_false] at h
  obtain h | h | h := h <;> simp [h, PartState.lit]

end Sys2Proof.Proofs

namespace Sys2Proof.Proofs

open Sys2Proof.Machine Sys2Proof.Safety Sys2Proof.Laws

/-! ## The output frame start as a whole -/

/-- Settles O13: the whole start through `workedAt`, then the part of each block. -/
theorem frameStartCountsAndReports : Obligations.FrameStartCountsAndReports := by
  refine ⟨fun order e s ht hl hm => ?_, fun order h => ⟨nodup_eraseDups _, mem_blockOrder order, blockOrder_of_nodup h⟩,
    fun s => ?_, fun s h => overlayFrame_silent h, fun s hw hr hslots hbufs => ?_⟩
  · intro aged s0 worked
    have hworked : worked = workedAt e order s := (runBlocks_foldl _ _).symm
    have hexec := exec_outputFrameStart ht order
    rw [hexec, hworked]
    refine ⟨fun hw hr => congrArg _ (frameStart_regions hw hr), fun hp => congrArg _ (frameStart_faulted hp), _, rfl, ?_⟩
    have hclock := frameStart_clock (e := e) (order := order) hl
    have hrecord := frameStart_record (e := e) (order := order) hm
    have hscans := scanEvent_scans (s := statusFrame (countFrame e s) (workedAt e order s))
    rw [← frameStart_eq] at hscans
    simp only [clock, Prod.mk.injEq] at hclock
    obtain ⟨hnow, hcfg, harea, hwork, hpending, hcode, hoffset, -, hframes, htimer⟩ := hclock
    exact ⟨hframes, htimer, hnow, hrecord, hscans, hcfg, harea, hwork, hpending, hcode, hoffset⟩
  · intro aged lamp polls
    refine ⟨fun h => ⟨?_, fun hb => ?_⟩, linkFrame_counts, linkFrame_builds, linkFrame_same⟩
    · have hlamp : lampAge s.part s.cfg s.lamp = lamp := lampAge_eq ..
      rw [← hlamp]
      exact lampDo_events h
    · have hpolls : (if s.part.lit then (s.bus.polls.map agePoll).map countPoll else s.bus.polls.map agePoll) = polls := by
        rw [countedPolls_eq]
        exact congrArg (s.bus.polls.map ·) (funext (countedPoll_eq s.part.lit))
      have hserve : busServe { s with bus := { s.bus with polls := polls } }
          = served { s with bus := { s.bus with polls := polls } } := by
        obtain ⟨hlen, hqueue⟩ := hb
        exact busServe_anywhere (s := { s with bus := { s.bus with polls := polls } }) h
          ⟨(List.length_map _).trans hlen, hqueue⟩
      rw [← hserve, ← hpolls]
      rfl
  · intro edit done o moves pan leaves fifo text stamp t
    have ht : t = _ := overlayFrame_eq hw hr ⟨hslots, hbufs⟩
    have hoverlay : t.overlay = overlayAfter s.cfg s.chainage s.overlay.edits o := by rw [ht]; rfl
    refine ⟨by rw [hoverlay, ht]; rfl, fun i c hc => ?_, ?_⟩
    · rw [hoverlay]
      exact overlayAfter_cells hc
    · rw [hoverlay]
      exact overlayAfter_eq ..

end Sys2Proof.Proofs

namespace Sys2Proof.Proofs

open Sys2Proof.Machine Sys2Proof.Safety Sys2Proof.Laws

/-! ## Cell edits (R64 to R67)

The model gives a cell of an edit a row and a column, the statement gives it an index of the stored grid or none. In each
edit the new cell is a function of the place, so the order in which the cells are written does not matter. -/

/-- The place of an edit's cell in the stored grid, none beyond it, and the new cell. -/
def gridPlace (p : Nat × Nat × Cell) : Option Nat × Cell :=
  (if p.1 < 48 ∧ p.2.1 < 64 then some (cellIndex p.1 p.2.1) else none, p.2.2)

theorem inStampField_iff (cfg : Cfg) (i : Nat) : inStampField cfg i = true ↔
    64 * cfg.stampRow + cfg.stampCol ≤ i ∧ i < 64 * cfg.stampRow + cfg.stampCol + 10 := by
  rw [inStampField, cellIndex, Nat.mul_comm, Bool.and_eq_true, decide_eq_true_eq, decide_eq_true_eq]

theorem startInGrid_iff (args : List Byte) : startInGrid args = true ↔ u8 args 1 < 48 ∧ u8 args 2 < 64 := by
  simp only [startInGrid, Bool.and_eq_true, decide_eq_true_eq]

theorem writable_gridPlace (cfg : Cfg) (p : Nat × Nat × Cell) :
    writable cfg p.1 p.2.1 = (gridPlace p).1.any fun i => !inStampField cfg i := by
  unfold writable gridPlace
  by_cases h : p.1 < 48 ∧ p.2.1 < 64
  · simp [h]
  · rw [if_neg h, Option.any_none, ← Bool.decide_and, decide_eq_false h, Bool.false_and]

theorem gridPlace_of_writable {cfg : Cfg} {p : Nat × Nat × Cell} (h : writable cfg p.1 p.2.1 = true) :
    gridPlace p = (some (cellIndex p.1 p.2.1), p.2.2) := by
  simp only [writable, Bool.and_eq_true, decide_eq_true_eq] at h
  rw [gridPlace, if_pos h.1]

/-- What an edit writes: indices of the stored grid and their new cells. -/
def putsOf (cfg : Cfg) (cells : List (Nat × Nat × Cell)) : List (Nat × Cell) :=
  (cells.filter fun p => writable cfg p.1 p.2.1).map fun p => (cellIndex p.1 p.2.1, p.2.2)

theorem gridPlace_filter (cfg : Cfg) (cells : List (Nat × Nat × Cell)) :
    ((cells.map gridPlace).filter fun p => p.1.any fun i => !inStampField cfg i)
      = (putsOf cfg cells).map fun p => (some p.1, p.2) := by
  have hfilter : cells.filter ((fun p => p.1.any fun i => !inStampField cfg i) ∘ gridPlace)
      = cells.filter fun p => writable cfg p.1 p.2.1 := List.filter_congr fun p _ => (writable_gridPlace cfg p).symm
  rw [putsOf, List.map_map, List.filter_map, hfilter]
  exact List.map_congr_left fun p hp => gridPlace_of_writable (List.mem_filter.1 hp).2

theorem putCells_length : ∀ (ps : List (Nat × Cell)) (cells : List Cell), (putCells ps cells).length = cells.length
  | [], _ => rfl
  | (i, c) :: ps, cells => (putCells_length ps (cells.set i c)).trans List.length_set

theorem putCells_other {i : Nat} : ∀ {ps : List (Nat × Cell)} {cells : List Cell}, (∀ p ∈ ps, p.1 ≠ i) →
    (putCells ps cells)[i]? = cells[i]?
  | [], _, _ => rfl
  | (_, _) :: _, _, h => (putCells_other fun p hp => h p (List.mem_cons_of_mem _ hp)).trans
      (List.getElem?_set_ne (h _ List.mem_cons_self))

/-- Where the cells for one index agree, that index holds what they say. -/
theorem putCells_agree {i : Nat} {c : Cell} : ∀ {ps : List (Nat × Cell)} {cells : List Cell}, i < cells.length →
    (∀ p ∈ ps, p.1 = i → p.2 = c) → ((∃ p ∈ ps, p.1 = i) ∨ cells[i]? = some c) → (putCells ps cells)[i]? = some c
  | [], _, _, _, .inr h => h
  | (j, d) :: ps, cells, hi, hc, h => by
    refine putCells_agree (ps := ps) (List.length_set.symm ▸ hi) (fun p hp => hc p (List.mem_cons_of_mem _ hp)) ?_
    by_cases hj : j = i
    · subst hj
      exact .inr ((List.getElem?_set_self hi).trans (congrArg some (hc _ List.mem_cons_self rfl)))
    · refine h.imp ?_ fun h => (List.getElem?_set_ne hj).trans h
      rintro ⟨p, hp, he⟩
      obtain rfl | hp := List.mem_cons.1 hp
      · exact absurd he hj
      · exact ⟨p, hp, he⟩

/-- Cells written one by one, where the new cell is a function of the place (R64). -/
theorem writeCells_written {cfg : Cfg} {clamped : Bool} {cells : List (Nat × Nat × Cell)} {o : Overlay} {g : Nat → Cell}
    (hg : ∀ p ∈ cells, p.2.2 = g (cellIndex p.1 p.2.1)) :
    CellsWritten cfg o false clamped (cells.map gridPlace) (writeCells cfg clamped cells o) := by
  have hputs : ∀ p ∈ putsOf cfg cells, p.2 = g p.1 := by
    simp only [putsOf, List.forall_mem_map]
    exact fun p hp => hg p (List.mem_of_mem_filter hp)
  have hlen : (cells.filter fun p => writable cfg p.1 p.2.1).length = (putsOf cfg cells).length :=
    (List.length_map _).symm
  unfold CellsWritten
  rw [gridPlace_filter]
  refine ⟨nofun, fun _ => ⟨?_, ?_, ?_, rfl, putCells_length _ _, fun i c hc => ⟨?_, ?_⟩⟩⟩
  · rw [List.length_map, ← hlen]
    rfl
  · rw [List.length_map, List.length_map, ← hlen]
    rfl
  · simp only [writeCells, hlen, List.length_eq_zero_iff, List.map_eq_nil_iff]
    rfl
  · simp only [List.forall_mem_map]
    rintro p hp hi
    obtain rfl : p.1 = i := Option.some.inj hi
    exact putCells_agree (List.getElem?_eq_some_iff.1 hc).1 (fun q hq he => by rw [hputs q hq, hputs p hp, he])
      (.inl ⟨p, hp, rfl⟩)
  · simp only [List.forall_mem_map]
    exact fun h => (putCells_other fun p hp he => h p hp (congrArg some he)).trans hc

/-- A layered edit is refused whole, or writes its cells (R64, log entry 32). -/
theorem editCells_written {cfg : Cfg} {clamped : Bool} {cells : List (Nat × Nat × Cell)} {o : Overlay} {g : Nat → Cell}
    (hg : ∀ p ∈ cells, p.2.2 = g (cellIndex p.1 p.2.1)) :
    CellsWritten cfg o true clamped (cells.map gridPlace) (editCells cfg clamped cells o) := by
  have hbad : ((cells.any fun p => writable cfg p.1 p.2.1 && p.2.2.layer == 3) = true
        ∨ (cells.any fun p => decide (3 < p.2.2.layer)) = true)
      ↔ (true && ((cells.map gridPlace).any (fun p => decide (3 < p.2.layer))
        || ((cells.map gridPlace).filter fun p => p.1.any fun i => !inStampField cfg i).any fun p => p.2.layer == 3)) = true := by
    rw [gridPlace_filter, putsOf, Bool.true_and, Bool.or_eq_true, List.any_map, List.any_map, List.any_map, List.any_filter,
      or_comm]
    rfl
  refine ⟨fun h => if_pos (hbad.2 h), fun h => ?_⟩
  rw [editCells, if_neg fun hb => Bool.eq_false_iff.1 h (hbad.1 hb)]
  exact (writeCells_written hg).2 rfl

/-! ### The cells of COPY and of the rectangles (R65, R66) -/

/-- A list of cells from a start position on, as COPY places it. -/
theorem copyPositions_gridPlace (row col n : Nat) (cell : Nat → Cell) :
    (copyPositions row col ((List.range n).map cell)).map gridPlace
      = (List.range n).map fun i => (if row * 64 + col + i < 3072 then some (row * 64 + col + i) else none, cell i) := by
  have hplace : ∀ i, gridPlace ((cellIndex row col + i) / 64, (cellIndex row col + i) % 64, cell i)
      = (if row * 64 + col + i < 3072 then some (row * 64 + col + i) else none, cell i) := by
    intro i
    refine congrArg (·, cell i) (if_congr ?_ (congrArg some ?_) rfl) <;> simp only [cellIndex] <;> omega
  refine List.ext_getElem (by simp [copyPositions]) fun i _ _ => ?_
  simp only [copyPositions, List.getElem_map, List.getElem_mapIdx, List.getElem_range, hplace]

theorem copyPositions_cell {row col : Nat} {cells : List Cell} : ∀ p ∈ copyPositions row col cells,
    p.2.2 = cells.getD (cellIndex p.1 p.2.1 - cellIndex row col) {} := by
  simp only [copyPositions, List.mem_mapIdx]
  rintro _ ⟨i, hi, rfl⟩
  have hplace : cellIndex ((cellIndex row col + i) / 64) ((cellIndex row col + i) % 64) - cellIndex row col = i := by
    simp only [cellIndex]
    omega
  rw [hplace]
  exact List.getElem_eq_getD _

theorem editCells_copy (cfg : Cfg) (clamped : Bool) (row col n : Nat) (cell : Nat → Cell) (o : Overlay) :
    CellsWritten cfg o true clamped
      ((List.range n).map fun i => (if row * 64 + col + i < 3072 then some (row * 64 + col + i) else none, cell i))
      (editCells cfg clamped (copyPositions row col ((List.range n).map cell)) o) := by
  rw [← copyPositions_gridPlace]
  exact editCells_written (g := fun i => ((List.range n).map cell).getD (i - cellIndex row col) {}) copyPositions_cell

section

variable (cfg : Cfg) (clamped : Bool) (row col height width : Nat) (f : Cell → Cell) (o : Overlay)

/-- The cells of a rectangle by rows, each from the one that stands there. -/
def rectangleCells : List (Option Nat × Cell) := (List.range height).flatMap fun r => (List.range width).map fun c =>
  let i := (row + r) * 64 + (col + c)
  (if row + r < 48 ∧ col + c < 64 then some i else none, f (o.cells.getD i {}))

theorem rectangle_gridPlace :
    (rectangle o row col height width f).map gridPlace = rectangleCells row col height width f o := by
  rw [rectangle, List.map_flatMap]
  exact congrArg (List.flatMap · _) (funext fun r => List.map_map)

theorem rectangle_cell : ∀ p ∈ rectangle o row col height width f, p.2.2 = f (o.cells.getD (cellIndex p.1 p.2.1) {}) := by
  simp only [rectangle, List.mem_flatMap, List.mem_map]
  rintro _ ⟨r, -, c, -, rfl⟩
  rfl

theorem writeCells_rectangle : CellsWritten cfg o false clamped (rectangleCells row col height width f o)
    (writeCells cfg clamped (rectangle o row col height width f) o) := by
  rw [← rectangle_gridPlace]
  exact writeCells_written (g := fun i => f (o.cells.getD i {})) (rectangle_cell row col height width f o)

theorem editCells_rectangle : CellsWritten cfg o true clamped (rectangleCells row col height width f o)
    (editCells cfg clamped (rectangle o row col height width f) o) := by
  rw [← rectangle_gridPlace]
  exact editCells_written (g := fun i => f (o.cells.getD i {})) (rectangle_cell row col height width f o)

end

end Sys2Proof.Proofs

namespace Sys2Proof.Proofs

open Sys2Proof.Machine Sys2Proof.Safety Sys2Proof.Laws

/-! ## OVERLAY_WRITE by its mode (R64 to R67) -/

theorem inlineCells_eq (args : List Byte) (n : Nat) : inlineCells args n = (List.range n).map fun i =>
    { ch := args.getD (6 + 2 * i) 0, attr := args.getD (7 + 2 * i) 0, blink := decide (u8 args 5 ≠ 0)
      layer := u8 args 3 } := by
  rw [inlineCells, flagAt_eq]

theorem bufferCells_eq (buf : List Byte) (n : Nat) : bufferCells buf n = (List.range n).map fun i =>
    { ch := buf.getD (4 * i) 0, attr := buf.getD (4 * i + 1) 0, blink := decide (buf.getD (4 * i + 2) 0 ≠ 0)
      layer := u8 buf (4 * i + 3) } := by
  simp only [bufferCells, flagAt, bne, beq_eq_decide, decide_not]

section

variable {cfg : Cfg} {e : Request} {o : Overlay}

theorem editBuffer_overlayWrite (hk : e.kind = 10) : editBuffer e =
    if u8 e.args 0 = 1 ∧ startInGrid e.args ∧ u32 e.args 8 % 4 = 0 then some (u32 e.args 8, 4 * min 1024 (u16 e.args 4))
    else none := by
  simp only [editBuffer, hk, kFontLoad, kOverlayWrite, Nat.reduceEqDiff, if_false, true_and]

/-- Only a COPY from a buffer reads one. -/
theorem editBuffer_noBuffer (hk : e.kind = 10) (h : u8 e.args 0 ≠ 1) : editBuffer e = none := by
  rw [editBuffer_overlayWrite hk, if_neg fun hb => h hb.1]

theorem applyEdit_overlayWrite (hk : e.kind = 10) : applyEdit cfg e none o = applyWrite cfg e.args o := by
  simp only [applyEdit, hk, kFontLoad, kOverlayStyle, Nat.reduceEqDiff, if_false]

theorem applyEdit_copyBuffer (hk : e.kind = 10) (b : List Byte) :
    applyEdit cfg e (some b) o = applyCopyBuffer cfg e.args b o := by
  simp only [applyEdit, hk, kFontLoad, kOverlayStyle, Nat.reduceEqDiff, if_false]

/-- A mode with a start position is refused when that lies beyond the stored grid. -/
theorem applyEdit_outside (hk : e.kind = 10) (h : u8 e.args 0 ≤ 3) (hs : ¬ (u8 e.args 1 < 48 ∧ u8 e.args 2 < 64)) :
    editBuffer e = none ∧ applyEdit cfg e none o = refuseEdit o := by
  have hs : ¬ startInGrid e.args = true := fun ht => hs ((startInGrid_iff _).1 ht)
  refine ⟨by rw [editBuffer_overlayWrite hk, if_neg fun hb => hs hb.2.1], (applyEdit_overlayWrite hk).trans ?_⟩
  simp only [applyWrite, if_neg hs]
  split
  case h_4 => omega
  all_goals rfl

/-- A mode above 4 is refused, and so is a COPY from a buffer that is not read. -/
theorem applyEdit_noMode (hk : e.kind = 10) (h : u8 e.args 0 = 1 ∨ 4 < u8 e.args 0) :
    applyEdit cfg e none o = refuseEdit o := by
  rw [applyEdit_overlayWrite hk, applyWrite]
  split
  case h_5 => rfl
  all_goals omega

theorem applyEdit_inlineCopy (hk : e.kind = 10) (h : u8 e.args 0 = 0) (hs : u8 e.args 1 < 48 ∧ u8 e.args 2 < 64) :
    applyEdit cfg e none o = editCells cfg (decide (20 < u8 e.args 4))
      (copyPositions (u8 e.args 1) (u8 e.args 2) (inlineCells e.args (min 20 (u8 e.args 4)))) o := by
  rw [applyEdit_overlayWrite hk]
  simp only [applyWrite, h, if_pos ((startInGrid_iff _).2 hs)]

theorem applyEdit_maskAttr (hk : e.kind = 10) (h : u8 e.args 0 = 2) (hs : u8 e.args 1 < 48 ∧ u8 e.args 2 < 64) :
    applyEdit cfg e none o = writeCells cfg (decide (48 < u8 e.args 4 ∨ 64 < u8 e.args 5))
      (rectangle o (u8 e.args 1) (u8 e.args 2) (min 48 (u8 e.args 4)) (min 64 (u8 e.args 5)) fun c =>
        { c with attr := (c.attr &&& ~~~e.args.getD 6 0) ||| (e.args.getD 7 0 &&& e.args.getD 6 0) }) o := by
  rw [applyEdit_overlayWrite hk, Bool.decide_or]
  simp only [applyWrite, h, if_pos ((startInGrid_iff _).2 hs)]

theorem applyEdit_fill (hk : e.kind = 10) (h : u8 e.args 0 = 3) (hs : u8 e.args 1 < 48 ∧ u8 e.args 2 < 64) :
    applyEdit cfg e none o = editCells cfg (decide (48 < u8 e.args 4 ∨ 64 < u8 e.args 5))
      (rectangle o (u8 e.args 1) (u8 e.args 2) (min 48 (u8 e.args 4)) (min 64 (u8 e.args 5)) fun _ =>
        { ch := e.args.getD 6 0, attr := e.args.getD 7 0, blink := decide (u8 e.args 8 ≠ 0), layer := u8 e.args 3 }) o := by
  rw [applyEdit_overlayWrite hk, Bool.decide_or, ← flagAt_eq]
  simp only [applyWrite, h, if_pos ((startInGrid_iff _).2 hs)]

theorem applyEdit_clearLayer (hk : e.kind = 10) (h : u8 e.args 0 = 4) :
    applyEdit cfg e none o = clearLayer cfg (u8 e.args 3) o := by
  rw [applyEdit_overlayWrite hk]
  simp only [applyWrite, h]

end

end Sys2Proof.Proofs

namespace Sys2Proof.Proofs

open Sys2Proof.Machine Sys2Proof.Safety Sys2Proof.Laws

/-! ## OVERLAY_STYLE by its part (R68) -/

section

variable {args : List Byte} {o : Overlay}

theorem editBuffer_overlayStyle {e : Request} (hk : e.kind = 11) : editBuffer e = none := by
  simp only [editBuffer, hk, kFontLoad, kOverlayWrite, Nat.reduceEqDiff, if_false, false_and]

theorem applyEdit_overlayStyle {cfg : Cfg} {e : Request} (hk : e.kind = 11) :
    applyEdit cfg e none o = applyStyle e.args o := by
  simp only [applyEdit, hk, kFontLoad, kOverlayStyle, Nat.reduceEqDiff, if_false, if_true]

/-- The result words of an OVERLAY_STYLE. -/
theorem applyStyle_words (args : List Byte) (o : Overlay) : (applyStyle args o).w0 = 0 ∧ (applyStyle args o).w1 = 0 := by
  unfold applyStyle
  split
  case h_1 => unfold stylePalette; simp only; split <;> exact ⟨rfl, rfl⟩
  case h_2 => unfold styleMasks; simp only; split <;> exact ⟨rfl, rfl⟩
  case h_4 => unfold styleBannerText; simp only; split <;> exact ⟨rfl, rfl⟩
  case h_6 => unfold styleMarkAttribute; split <;> exact ⟨rfl, rfl⟩
  all_goals exact ⟨rfl, rfl⟩

theorem applyStyle_part (args : List Byte) (o : Overlay) :
    (u8 args 0 = 0 → applyStyle args o = stylePalette args o) ∧ (u8 args 0 = 1 → applyStyle args o = styleMasks args o)
    ∧ (u8 args 0 = 2 → applyStyle args o = styleBlink args o)
    ∧ (u8 args 0 = 3 → applyStyle args o = styleBannerText args o)
    ∧ (u8 args 0 = 4 → applyStyle args o = styleBannerSpeed args o)
    ∧ (u8 args 0 = 5 → applyStyle args o = styleMarkAttribute args o) := by
  refine ⟨?_, ?_, ?_, ?_, ?_, ?_⟩ <;> intro h <;> simp only [applyStyle, h]

theorem applyStyle_noPart (h : 5 < u8 args 0) : applyStyle args o = refuseEdit o := by
  unfold applyStyle
  split
  case h_7 => rfl
  all_goals omega

theorem paletteEntry_eq (args : List Byte) (j : Nat) : paletteEntry args j =
    let k := 4 + 4 * j
    { y := args.getD k 0, cb := args.getD (k + 1) 0, cr := args.getD (k + 2) 0, opacity := min 16 (u8 args (k + 3)) } := by
  simp only [paletteEntry, Nat.add_right_comm _ (4 * j), Nat.reduceAdd]

/-- The entries named, each from its four bytes; nothing else changes. -/
theorem stylePalette_taken (h : ¬ (u8 args 2 = 0 ∨ 8 < u8 args 2 ∨ 16 < u8 args 1 + u8 args 2)) :
    let r := stylePalette args o
    r.overlay = { o with palette := r.overlay.palette }
    ∧ (∀ (i : Nat) (p : PaletteEntry), o.palette[i]? = some p →
        let k := 4 + 4 * (i - u8 args 1)
        r.overlay.palette[i]? = some (if u8 args 1 ≤ i ∧ i < u8 args 1 + u8 args 2 then
          { y := args.getD k 0, cb := args.getD (k + 1) 0, cr := args.getD (k + 2) 0, opacity := min 16 (u8 args (k + 3)) }
          else p))
    ∧ r.code = if ∃ i < u8 args 2, 16 < u8 args (7 + 4 * i) then 1 else 0 := by
  simp only [stylePalette, if_neg h, true_and]
  refine ⟨fun i p hp => ?_, if_congr ?_ rfl rfl⟩
  · rw [List.getElem?_mapIdx, hp, Option.map_some, paletteEntry_eq]
  · simp only [List.any_eq_true, List.mem_range, decide_eq_true_eq]

/-- A mask part that names no mask has its three low bits clear. -/
theorem noMask_iff (args : List Byte) :
    (bitAt args 1 0 = false ∧ bitAt args 1 1 = false ∧ bitAt args 1 2 = false) ↔ u8 args 1 % 8 = 0 := by
  simp only [bitAt, BitVec.getLsbD, Nat.testBit_eq_decide_div_mod_eq, decide_eq_false_iff_not]
  change _ ↔ (args.getD 1 0).toNat % 8 = 0
  omega

/-- The masks a part MASKS refuses (R68). -/
theorem styleMasks_refused_iff (args : List Byte) :
    ((bitAt args 1 0 = false ∧ bitAt args 1 1 = false ∧ bitAt args 1 2 = false) ∨ (bitAt args 1 0 = true ∧ 15 < u8 args 2)
        ∨ (bitAt args 1 1 = true ∧ 15 < u8 args 3) ∨ (bitAt args 1 2 = true ∧ 15 < u8 args 4))
      ↔ u8 args 1 % 8 = 0 ∨ ∃ i < 3, bitAt args 1 i = true ∧ 15 < u8 args (2 + i) := by
  refine or_congr (noMask_iff args) ⟨?_, ?_⟩
  · rintro (h | h | h)
    exacts [⟨0, by decide, h⟩, ⟨1, by decide, h⟩, ⟨2, by decide, h⟩]
  · rintro ⟨i, hi, h⟩
    match i, hi with
    | 0, _ => exact .inl h
    | 1, _ => exact .inr (.inl h)
    | 2, _ => exact .inr (.inr h)

theorem styleMasks_taken (h : ¬ (u8 args 1 % 8 = 0 ∨ ∃ i < 3, bitAt args 1 i = true ∧ 15 < u8 args (2 + i))) :
    styleMasks args o = ⟨{ o with
      key := if bitAt args 1 0 then BitVec.ofNat 4 (u8 args 2) else o.key
      care := if bitAt args 1 1 then BitVec.ofNat 4 (u8 args 3) else o.care
      layerEnable := if bitAt args 1 2 then BitVec.ofNat 4 (u8 args 4) else o.layerEnable }, 0, 0, 0⟩ :=
  if_neg fun hr => h ((styleMasks_refused_iff args).1 hr)

/-- The banner text after the request: the characters join what stays, and the last 128 remain (R68, R69). -/
theorem styleBannerText_taken (h : ¬ (u8 args 1 = 0 ∧ u8 args 2 = 0)) :
    let kept := (if u8 args 1 = 0 then o.fifo else []) ++ (args.drop 4).take (min 44 (u8 args 2))
    styleBannerText args o = ⟨{ o with
      fifo := kept.drop (kept.length - 128), pan := if u8 args 1 = 0 then o.pan else 0 },
      if 44 < u8 args 2 then 1 else 0, 0, 0⟩ := by
  have hflag : flagAt args 1 = false ↔ u8 args 1 = 0 := by rw [flagAt_eq, decide_eq_false_iff_not, not_not]
  have hrefused : ¬ (u8 args 2 = 0 ∧ flagAt args 1 = false) := fun hr => h ⟨hflag.1 hr.2, hr.1⟩
  simp only [styleBannerText, if_neg hrefused, appendFifo, slice]
  by_cases hr : u8 args 1 = 0
  · simp only [hr, hflag.2 hr, Bool.false_eq_true, if_true, if_false, List.length_append]
    rfl
  · have ht : flagAt args 1 = true := Bool.of_not_eq_false fun hf => hr (hflag.1 hf)
    simp only [hr, ht, if_true, if_false, List.nil_append, List.length_nil, Nat.zero_add]
    rfl

theorem styleBannerText_refused (h : u8 args 1 = 0) (h' : u8 args 2 = 0) : styleBannerText args o = refuseEdit o :=
  if_pos ⟨h', by rw [flagAt_eq, h]; rfl⟩

end

end Sys2Proof.Proofs

namespace Sys2Proof.Proofs

open Sys2Proof.Machine Sys2Proof.Safety Sys2Proof.Laws

/-! ## FONT_LOAD (R60) -/

theorem fontRefused_iff (args : List Byte) :
    fontRefused args = true ↔ u8 args 0 < 0xE0 ∨ u32 args 4 % 4 ≠ 0 ∨ u8 args 1 = 0 := by
  simp only [fontRefused, Bool.or_eq_true, decide_eq_true_eq, bne_iff_ne, beq_iff_eq, or_assoc]

theorem editBuffer_fontLoad {e : Request} (hk : e.kind = 12) :
    editBuffer e = if fontRefused e.args then none else some (u32 e.args 4, 48 * fontCount e.args) := by
  simp only [editBuffer, hk, kFontLoad, if_true]

theorem applyEdit_fontLoad {cfg : Cfg} {e : Request} {o : Overlay} (hk : e.kind = 12) (b : List Byte) :
    applyEdit cfg e (some b) o = applyFont e.args b o := by
  simp only [applyEdit, hk, kFontLoad, if_true]

theorem applyEdit_fontLoad_refused {cfg : Cfg} {e : Request} {o : Overlay} (hk : e.kind = 12) :
    applyEdit cfg e none o = refuseEdit o := by
  simp only [applyEdit, hk, kFontLoad, if_true]

theorem padTo_exact {n : Nat} {bs : List Byte} (h : bs.length = n) : padTo n bs = bs := List.take_left' h

/-- A stretch of a list replaced by another of its length: inside it the new items, outside it the old. -/
theorem getElem?_replaced {α : Type} {l m : List α} {k : Nat} (h : k + m.length ≤ l.length) (i : Nat) :
    (l.take k ++ m ++ l.drop (k + m.length))[i]? = if k ≤ i ∧ i < k + m.length then m[i - k]? else l[i]? := by
  have hk : (l.take k).length = k := List.length_take_of_le (by omega)
  rw [List.append_assoc]
  by_cases hlow : i < k
  · rw [if_neg (by omega), List.getElem?_append_left (hk.symm ▸ hlow), List.getElem?_take_of_lt hlow]
  rw [List.getElem?_append_right (by omega), hk]
  by_cases hin : i < k + m.length
  · rw [if_pos (by omega), List.getElem?_append_left (by omega)]
  · rw [if_neg (by omega), List.getElem?_append_right (by omega), List.getElem?_drop]
    congr 1
    omega

/-- The glyphs of the codes named are replaced, and the glyph store keeps its length (R60). -/
theorem applyFont_glyphs {args b : List Byte} {o : Overlay} (hcode : 0xE0 ≤ u8 args 0) (hb : b.length = 48 * fontCount args)
    (ho : o.glyphs.length = 1536) : (applyFont args b o).overlay.glyphs.length = 1536
      ∧ ∀ i, let at_ := 48 * (u8 args 0 - 0xE0)
          (applyFont args b o).overlay.glyphs[i]?
            = if at_ ≤ i ∧ i < at_ + 48 * fontCount args then b[i - at_]? else o.glyphs[i]? := by
  have hfit : 48 * (u8 args 0 - 0xE0) + b.length ≤ o.glyphs.length := by
    have hbyte : u8 args 0 < 256 := BitVec.isLt _
    simp only [fontCount] at hb
    omega
  have hglyphs : (applyFont args b o).overlay.glyphs = o.glyphs.take (48 * (u8 args 0 - 0xE0)) ++ b
      ++ o.glyphs.drop (48 * (u8 args 0 - 0xE0) + b.length) := by
    simp only [applyFont, padTo_exact hb, Nat.mul_comm _ 48, hb]
  rw [hglyphs, ← hb]
  refine ⟨?_, getElem?_replaced hfit⟩
  simp only [List.length_append, List.length_take, List.length_drop]
  omega

end Sys2Proof.Proofs

namespace Sys2Proof.Proofs

open Sys2Proof.Machine Sys2Proof.Safety Sys2Proof.Laws

/-! ## Requests that join their unit's queue (R63, R137, R160) -/

/-- A request whose operation leaves RUNNING and the list engine as they are: nothing follows its hand-over. -/
theorem handOverKind_running {k : Nat} {r : Request} {s t : State} {f : Request → State → State} (h : InHand k r s)
    (hf : f r (released s) = t) (hp : t.part = s.part := by rfl) (hl : t.list = (released s).list := by rfl) :
    handOverKind k f s = t := by
  obtain ⟨hrun, hh, hk, hw, -⟩ := h
  have ho : handOverKind k f s = finishHand (f r (released s)) := handOver_eq hh (beq_iff_eq.2 hk)
  rw [ho, hf]
  exact finishHand_running (hp.trans hrun) (by rw [hl]; exact hw)

theorem snapshotOp_joins {r : Request} {s : State} (hp : s.part = .running) (h : s.still.orders.length < 2) :
    snapshotOp r s = joinOrder (.snapshot r.slot) s := by
  rw [snapshotOp, if_pos hp]
  exact if_pos (decide_eq_true h)

theorem snapshotOp_busy {r : Request} {s : State} (hp : s.part = .running) (h : 2 ≤ s.still.orders.length) :
    snapshotOp r s = complete r.slot 4 0 0 s := by
  rw [snapshotOp, if_pos hp]
  exact if_neg fun hr => absurd (of_decide_eq_true hr) (Nat.not_lt.2 h)

theorem uplinkSendOp_joins {r : Request} {s : State} (hp : s.part = .running) (hlo : 0xA0 ≤ u8 r.args 0)
    (hhi : u8 r.args 0 ≤ 0xBF) (hlen : u8 r.args 1 ≤ 32) : uplinkSendOp r s = { s with
      link := { s.link with
        queue := s.link.queue ++ [{ host := some r.slot, kind := r.args.getD 0 0
                                    payload := (r.args.drop 4).take (u8 r.args 1) }] } } := by
  have hrefused : ¬ uplinkRefused r.args = true := by
    simp only [uplinkRefused, Bool.or_eq_true, decide_eq_true_eq]
    omega
  rw [uplinkSendOp, if_neg hrefused, if_neg (by rw [hp]; decide)]
  rfl

/-- Settles O29: the queues first, then the stamp field, then each edit by its kind and its selector. -/
theorem queuedRequestsWait : Obligations.QueuedRequestsWait := by
  refine ⟨fun k r s h => ?_, inStampField_iff, ?_⟩
  · have hp : (released s).part = .running := h.1
    refine ⟨?_, ?_, ?_, ?_, ?_, ?_⟩ <;> rintro rfl
    · exact fun hroom => congrArg Host.Outcome.next (handOverKind_running h (snapshotOp_joins hp hroom))
    · exact fun hfull => congrArg Host.Outcome.next (handOver_answered h (beq_self_eq_true _) (snapshotOp_busy hp hfull))
    · exact congrArg Host.Outcome.next (handOverKind_running h rfl)
    · exact congrArg Host.Outcome.next (handOverKind_running h rfl)
    · exact congrArg Host.Outcome.next (handOverKind_running h rfl)
    · exact fun hlo hhi hlen => congrArg Host.Outcome.next (handOverKind_running h (uplinkSendOp_joins hp hlo hhi hlen))
  intro cfg e o byteAt a inGrid done refused start list rect large cleared count codes fontBad
  have noBuffer : ∀ {mode}, e.kind = 10 → mode ≠ 1 → a 0 = mode → editBuffer e = none :=
    fun hk hm h => editBuffer_noBuffer hk (ne_of_eq_of_ne h hm)
  refine ⟨fun hk => ⟨fun h hs => applyEdit_outside hk h hs,
      fun h => ⟨editBuffer_noBuffer hk (Nat.lt_trans (by decide) h).ne', applyEdit_noMode hk (.inr h)⟩,
      fun h hs => ⟨noBuffer hk (by decide) h, ?_⟩, fun h hs hb => ⟨?_, applyEdit_noMode hk (.inl h)⟩,
      fun h hs hb => ⟨?_, fun b => ?_⟩, fun h hs => ⟨noBuffer hk (by decide) h, ?_⟩,
      fun h hs => ⟨noBuffer hk (by decide) h, ?_⟩, fun h => ⟨noBuffer hk (by decide) h, ?_, ?_⟩⟩,
    fun hk => ?_, fun hk => ?_⟩
  · rw [show done = _ from applyEdit_inlineCopy hk h hs, inlineCells_eq]
    exact editCells_copy ..
  · rw [editBuffer_overlayWrite hk, if_neg fun hr => hb hr.2.2]
  · rw [editBuffer_overlayWrite hk, if_pos ⟨h, (startInGrid_iff _).2 hs, hb⟩]
  · rw [applyEdit_copyBuffer hk, applyCopyBuffer, bufferCells_eq]
    exact editCells_copy ..
  · rw [show done = _ from applyEdit_maskAttr hk h hs]
    exact writeCells_rectangle ..
  · rw [show done = _ from applyEdit_fill hk h hs]
    exact editCells_rectangle cfg large (a 1) (a 2) _ _
      (fun _ => { ch := byteAt 6, attr := byteAt 7, blink := decide (a 8 ≠ 0), layer := a 3 }) o
  · exact fun hl => (applyEdit_clearLayer hk h).trans (if_pos hl)
  · exact fun hl => (applyEdit_clearLayer hk h).trans (if_neg (Nat.not_le.2 hl))
  · have hdone : done = applyStyle e.args o := applyEdit_overlayStyle hk
    rw [hdone]
    obtain ⟨hw0, hw1⟩ := applyStyle_words e.args o
    refine ⟨editBuffer_overlayStyle hk, hw0, hw1, ?_⟩
    obtain ⟨palette, masks, blink, text, speed, mark⟩ := applyStyle_part e.args o
    refine ⟨fun h hr => (palette h).trans (if_pos hr), fun h h0 h8 h16 => ?_,
      fun h hr => (masks h).trans (if_pos ((styleMasks_refused_iff _).2 hr)), fun h hnone hwide => ?_, fun h => ?_,
      fun h h1 h2 => (text h).trans (styleBannerText_refused h1 h2), fun h ht => ?_, fun h => ?_,
      fun h hr => (mark h).trans (if_pos hr), fun h hfg hbg => ?_, applyStyle_noPart⟩
    · rw [palette h]
      exact stylePalette_taken (by simp only [a] at h0 h8 h16; omega)
    · rw [masks h, styleMasks_taken]
      · exact ⟨rfl, rfl⟩
      · rintro (hr | ⟨i, hi, hb, hr⟩)
        exacts [hnone hr, Nat.not_lt.2 (hwide i hi hb) hr]
    · rw [blink h]
      exact ⟨rfl, rfl⟩
    · rw [text h, styleBannerText_taken ht]
      exact ⟨rfl, rfl⟩
    · rw [speed h]
      exact ⟨rfl, rfl⟩
    · rw [mark h, styleMarkAttribute, if_neg (not_or.2 ⟨Nat.not_lt.2 hfg, Nat.not_lt.2 hbg⟩)]
      exact ⟨rfl, rfl⟩
  · refine ⟨fun hb => ⟨?_, applyEdit_fontLoad_refused hk⟩, fun hb => ⟨?_, fun b hlen ho => ?_⟩⟩
    · rw [editBuffer_fontLoad hk, if_pos ((fontRefused_iff _).2 hb)]
    · rw [editBuffer_fontLoad hk, if_neg fun hr => hb ((fontRefused_iff _).1 hr)]
      rfl
    · rw [applyEdit_fontLoad hk]
      have hcode : 0xE0 ≤ u8 e.args 0 := Nat.not_lt.1 fun hr => hb (.inl hr)
      obtain ⟨hlength, hglyphs⟩ := applyFont_glyphs hcode hlen ho
      exact ⟨rfl, rfl, rfl, rfl, hlength, fun i _ => hglyphs i⟩

end Sys2Proof.Proofs

namespace Sys2Proof.Proofs

open Sys2Proof.Machine Sys2Proof.Safety Sys2Proof.Laws

/-! ## The loop (R96 to R100) -/

/-- A quotient rounded up, by its remainder. -/
theorem ceilDiv_eq_mod {a b : Nat} (hb : 0 < b) : ceilDiv a b = if a % b = 0 then a / b else a / b + 1 := by
  have ha := Nat.div_add_mod' a b
  have hlt := Nat.mod_lt a hb
  unfold ceilDiv
  split
  · exact Nat.div_eq_of_lt_le (by omega) (by rw [Nat.succ_mul]; omega)
  · exact Nat.div_eq_of_lt_le (by rw [Nat.succ_mul]; omega) (by rw [Nat.succ_mul, Nat.succ_mul]; omega)

/-- A quotient rounded up is at most `n` exactly where `n` times the divisor reaches the dividend. -/
theorem ceilDiv_le_iff {a b n : Nat} (hb : 0 < b) : ceilDiv a b ≤ n ↔ a ≤ n * b := by
  unfold ceilDiv
  rw [← Nat.lt_succ_iff, Nat.div_lt_iff_lt_mul hb, Nat.succ_mul]
  omega

theorem lowerLevel_le (e : Exposure) (lCap : Nat) : lowerLevel e lCap ≤ lCap := Nat.min_le_right ..

theorem allocate_dark (e : Exposure) (p : Nat) : allocate e 0 p = ⟨0, e.tMax, e.gMax⟩ := if_pos rfl

section

variable {e : Exposure} {lCap p : Nat}

/-- The preferred time gives a level within its bounds (R99, first case). -/
theorem allocate_preferred (hc : 0 < lCap) (hlo : lowerLevel e lCap ≤ ceilDiv p e.tPref) (hhi : ceilDiv p e.tPref ≤ lCap) :
    allocate e lCap p = ⟨ceilDiv p e.tPref, e.tPref, 256⟩ := by
  rw [allocate, if_neg hc.ne']
  exact if_pos ⟨hlo, hhi⟩

/-- The lowest level, with a shorter time (R99, second case). -/
theorem allocate_shorter (hc : 0 < lCap) (hlo : ceilDiv p e.tPref < lowerLevel e lCap) :
    allocate e lCap p = ⟨lowerLevel e lCap, max e.tMin (p / lowerLevel e lCap), 256⟩ := by
  rw [allocate, if_neg hc.ne']
  exact (if_neg fun h => Nat.not_le.2 hlo h.1).trans (if_pos hlo)

/-- The highest level, with a longer time, and then with gain (R99, the last two cases). -/
theorem allocate_longer (hc : 0 < lCap) (hhi : lCap < ceilDiv p e.tPref) :
    allocate e lCap p = if ceilDiv p lCap ≤ e.tMax then ⟨lCap, ceilDiv p lCap, 256⟩
      else ⟨lCap, e.tMax, min e.gMax (ceilDiv (p * 256) (lCap * e.tMax))⟩ := by
  rw [allocate, if_neg hc.ne']
  exact (if_neg fun h => Nat.not_le.2 hhi h.2).trans (if_neg (Nat.not_lt.2 ((lowerLevel_le e lCap).trans hhi.le)))

/-- A plan within the bounds in force (R94). -/
def PlanWithin (e : Exposure) (lCap : Nat) (plan : Plan) : Prop :=
  plan.level ≤ lCap ∧ e.tMin ≤ plan.t ∧ plan.t ≤ e.tMax ∧ 256 ≤ plan.gain ∧ plan.gain ≤ e.gMax

/-- Every allocation stays within the bounds in force. -/
theorem allocate_within (hMin : 0 < e.tMin) (hPref : e.tMin ≤ e.tPref) (hMax : e.tPref ≤ e.tMax) (hGain : 256 ≤ e.gMax) :
    PlanWithin e lCap (allocate e lCap p) := by
  have hpref : 0 < e.tPref := hMin.trans_le hPref
  obtain rfl | hc := Nat.eq_zero_or_pos lCap
  · rw [allocate_dark]
    exact ⟨le_rfl, hPref.trans hMax, le_rfl, hGain, le_rfl⟩
  obtain hlo | hlo := Nat.lt_or_ge (ceilDiv p e.tPref) (lowerLevel e lCap)
  · have hp : p / lowerLevel e lCap ≤ e.tPref := Nat.div_le_of_le_mul ((ceilDiv_le_iff hpref).1 hlo.le)
    rw [allocate_shorter hc hlo]
    exact ⟨lowerLevel_le e lCap, Nat.le_max_left .., max_le (hPref.trans hMax) (hp.trans hMax), le_rfl, hGain⟩
  obtain hhi | hhi := Nat.lt_or_ge lCap (ceilDiv p e.tPref)
  · rw [allocate_longer hc hhi]
    have hp : lCap * e.tPref < p := Nat.lt_of_not_le fun h => Nat.not_le.2 hhi ((ceilDiv_le_iff hpref).2 h)
    split
    · have ht : e.tPref < ceilDiv p lCap := Nat.lt_of_not_le fun h =>
        Nat.not_le.2 hp (Nat.mul_comm lCap e.tPref ▸ (ceilDiv_le_iff hc).1 h)
      exact ⟨le_rfl, hPref.trans ht.le, ‹_›, le_rfl, hGain⟩
    · rename_i ht
      have hmax : 0 < lCap * e.tMax := Nat.mul_pos hc (hpref.trans_le hMax)
      have hg : 256 < ceilDiv (p * 256) (lCap * e.tMax) := by
        refine Nat.lt_of_not_le fun h => ht ((ceilDiv_le_iff hc).2 ?_)
        have hp := (ceilDiv_le_iff hmax).1 h
        rw [Nat.mul_comm e.tMax]
        omega
      exact ⟨le_rfl, hPref.trans hMax, le_rfl, le_min hGain hg.le, Nat.min_le_left ..⟩
  · rw [allocate_preferred hc hlo hhi]
    exact ⟨hhi, hPref, hMax, le_rfl, hGain⟩

/-- In the dark a run takes the longest time and the highest gain (R99). -/
theorem loopPlan_dark (e : Exposure) (r : Report) : loopPlan e 0 r = ⟨0, e.tMax, e.gMax⟩ := if_pos rfl

theorem loopPlan_lit (hc : 0 < lCap) (r : Report) :
    loopPlan e lCap r = allocate e lCap (newProduct e lCap r.mean (measuredProduct r)) := if_neg hc.ne'

theorem loopPlan_within (r : Report) (hMin : 0 < e.tMin) (hPref : e.tMin ≤ e.tPref) (hMax : e.tPref ≤ e.tMax)
    (hGain : 256 ≤ e.gMax) : PlanWithin e lCap (loopPlan e lCap r) := by
  obtain rfl | hc := Nat.eq_zero_or_pos lCap
  · rw [loopPlan_dark, ← allocate_dark e 0]
    exact allocate_within hMin hPref hMax hGain
  · rw [loopPlan_lit hc]
    exact allocate_within hMin hPref hMax hGain

end

/-- The damped product in signed arithmetic (R97, R98). -/
theorem newProduct_signed (e : Exposure) (lCap : Nat) (r : Report) :
    let meas : Int := r.level * r.t * r.gain / 256
    let aim : Int := meas * e.target / (max 1 r.mean : Nat)
    let low : Int := if min e.lMin lCap = 0 then e.tMin else (min e.lMin lCap : Nat) * e.tMin
    let high : Int := lCap * e.tMax * e.gMax / 256
    newProduct e lCap r.mean (measuredProduct r)
      = (min high (max low (meas + Int.tdiv ((aim - meas) * e.damping) 16))).toNat := by
  have hlow : (lowerProduct e lCap : Int) = if min e.lMin lCap = 0 then (e.tMin : Int) else (min e.lMin lCap : Nat) * e.tMin := by
    rw [lowerProduct, lowerLevel]
    split
    · rfl
    · exact Nat.cast_mul ..
  have hhigh : (upperProduct e lCap : Int) = lCap * e.tMax * e.gMax / 256 := by
    rw [upperProduct]
    push_cast
    rfl
  have hmeas : (measuredProduct r : Int) = r.level * r.t * r.gain / 256 := by
    rw [measuredProduct]
    push_cast
    rfl
  simp only [newProduct, clampInt, hlow, hhigh, meanUsed, Int.natCast_ediv, Int.natCast_mul, hmeas]

/-! ### The report -/

theorem loopEligible_iff {s : State} {r : Report} : loopEligible s r = true ↔
    s.part = .running ∧ s.exposure.mode = .auto ∧ r.boost = false ∧ r.los = false := by
  simp [loopEligible, and_assoc]

theorem inDeadBand_iff {e : Exposure} {mean : Nat} : inDeadBand e mean = true ↔
    |((max 1 mean : Nat) : Int) - e.target| ≤ e.tolerance := by
  refine decide_eq_true_iff.trans ?_
  simp only [absDiff, meanUsed, abs_le]
  omega

section

variable {r : Report} {s : State}

/-- A report stored (R96). -/
def reportStored (r : Report) (s : State) : State := { s with exposure := { s.exposure with last := some r } }

theorem exposureReport_stored (h : ¬ (s.part = .running ∧ s.exposure.mode = .auto ∧ r.boost = false ∧ r.los = false)) :
    exposureReport r s = reportStored r s :=
  if_neg fun hr => h ((loopEligible_iff (s := reportStored r s)).1 hr)

/-- In its dead band a run hands the gain again where the retry flag is set (R97). -/
theorem exposureReport_dead (h : s.part = .running ∧ s.exposure.mode = .auto ∧ r.boost = false ∧ r.los = false)
    (hd : |((max 1 r.mean : Nat) : Int) - s.exposure.target| ≤ s.exposure.tolerance) :
    exposureReport r s = if s.exposure.retry then handGain (reportStored r s) else reportStored r s :=
  (if_pos ((loopEligible_iff (s := reportStored r s)).2 h)).trans
    (if_pos ((inDeadBand_iff (e := (reportStored r s).exposure)).2 hd))

/-- Beyond it the run replaces the plan and hands the gain (R97 to R100). -/
theorem exposureReport_run (h : s.part = .running ∧ s.exposure.mode = .auto ∧ r.boost = false ∧ r.los = false)
    (hd : ¬ |((max 1 r.mean : Nat) : Int) - s.exposure.target| ≤ s.exposure.tolerance) :
    let cap := loopCap s.lamp s.exposure
    let plan := loopPlan (reportStored r s).exposure cap r
    let t := handGain { s with exposure := { (reportStored r s).exposure with
      planL := plan.level, planT := plan.t, planG := plan.gain, lCap := cap } }
    exposureReport r s = { t with exposure := { t.exposure with retry := false } } :=
  (if_pos ((loopEligible_iff (s := reportStored r s)).2 h)).trans
    (if_neg fun hr => hd ((inDeadBand_iff (e := (reportStored r s).exposure)).1 hr))

end

/-! ### R101's table -/

section

variable {s : State}

theorem handGain_other (h : s.part ≠ .running) : handGain s = s := if_pos h

/-- In IDLE the gain is handed where it differs from the gain in effect, or is to be tried again. -/
theorem handGain_idle (hp : s.part = .running) (h : s.exposure.gws = .idle) :
    handGain s = if s.exposure.retry = true ∨ s.exposure.planG ≠ s.exposure.gainInEffect then { s with
        exposure := { s.exposure with gws := .queued, handedGain := some s.exposure.planG }
        bus := { s.bus with pendingGain := some s.exposure.planG } } else s := by
  simp only [handGain, hp, h, ne_eq, not_true_eq_false, if_false, Bool.or_eq_true, decide_eq_true_iff]

/-- In QUEUED another gain replaces the update, or withdraws it where it is the gain in effect. -/
theorem handGain_queued (hp : s.part = .running) (h : s.exposure.gws = .queued) :
    handGain s = if s.exposure.handedGain = some s.exposure.planG then s
      else if s.exposure.planG = s.exposure.gainInEffect then { s with
        exposure := { s.exposure with gws := .idle, handedGain := none }, bus := { s.bus with pendingGain := none } }
      else { s with
        exposure := { s.exposure with handedGain := some s.exposure.planG }
        bus := { s.bus with pendingGain := some s.exposure.planG } } := by
  simp only [handGain, hp, h, ne_eq, not_true_eq_false, if_false]

/-- In WRITING another gain is queued behind the write. -/
theorem handGain_writing (hp : s.part = .running) (h : s.exposure.gws = .writing) :
    handGain s = if s.exposure.handedGain = some s.exposure.planG then s else { s with
        exposure := { s.exposure with handedGain := some s.exposure.planG, behind := true }
        bus := { s.bus with pendingGain := some s.exposure.planG } } := by
  simp only [handGain, hp, h, ne_eq, not_true_eq_false, if_false]

/-- A gain that is handed already stays, in QUEUED and in WRITING. -/
theorem handGain_handed (hp : s.part = .running) (h : s.exposure.gws ≠ .idle)
    (hg : s.exposure.handedGain = some s.exposure.planG) : handGain s = s := by
  match hw : s.exposure.gws with
  | .idle => exact absurd hw h
  | .queued => rw [handGain_queued hp hw, if_pos hg]
  | .writing => rw [handGain_writing hp hw, if_pos hg]

end

/-- Settles O42: the cases of R99's table, the bounds, a run by its report, and R101's table. -/
theorem allocationByCases : Obligations.AllocationByCases := by
  intro e lCap p hPref hMax lo up la tb
  have hla : la = ceilDiv p e.tPref := (ceilDiv_eq_mod hPref).symm
  have htb (hc : 0 < lCap) : tb = ceilDiv p lCap := (ceilDiv_eq_mod hc).symm
  rw [hla]
  refine ⟨fun hc => hc ▸ allocate_dark e p, allocate_preferred, allocate_shorter, fun hc hhi ht => ?_, fun hc hhi ht => ?_,
    fun r => loopPlan_within r, fun r => ?_, fun r s hs => ?_, fun s hs => ?_⟩
  · rw [htb hc] at ht ⊢
    rw [allocate_longer hc hhi, if_pos ht]
  · rw [htb hc] at ht
    have hup : up (p * 256) (lCap * e.tMax) = _ := (ceilDiv_eq_mod (Nat.mul_pos hc hMax)).symm
    rw [allocate_longer hc hhi, if_neg (Nat.not_le.2 ht), hup]
  · refine ⟨fun hc => ?_, fun hc => hc ▸ loopPlan_dark e r⟩
    rw [loopPlan_lit hc, newProduct_signed]
  · subst hs
    exact ⟨exposureReport_stored, exposureReport_dead, fun hruns hd => ⟨_, rfl, exposureReport_run hruns hd⟩⟩
  · subst hs
    refine ⟨handGain_other, fun hp => ⟨fun h hr hg => ?_, fun h hg => ?_, handGain_handed hp, fun h hn hg => ?_,
      fun h hn hg => ?_, fun h hn => ?_⟩⟩
    · rw [handGain_idle hp h, if_neg (by simp [hr, hg])]
    · rw [handGain_idle hp h, if_pos hg]
    · rw [handGain_queued hp h, if_neg hn, if_pos hg]
    · rw [handGain_queued hp h, if_neg hn, if_neg hg]
    · rw [handGain_writing hp h, if_neg hn]

end Sys2Proof.Proofs

namespace Sys2Proof.Proofs

open Sys2Proof.Machine Sys2Proof.Safety Sys2Proof.Laws

/-! ## After the owner of a transaction has acted (R8, R150, R157)

The owner of a transaction writes events alone. In RUNNING, HALTING and HALTED with the regions in reach they are
written or missed; in FAULTED nothing is done with them. In either case the unit then looks for work, and a HALT may
end. -/

/-- No event can meet a memory error: the part works with its regions in reach, or is in FAULTED (R10). -/
def ErrorFree (s : State) : Prop := Working s ∧ RegionsOk s ∨ s.part = .faulted

theorem errorFree_of_lit {s : State} (h : (s.part = .running ∨ s.part = .halting) ∧ RegionsOk s ∨ s.part = .faulted) :
    ErrorFree s := h.imp_left fun ⟨hp, hr⟩ => ⟨hp.elim .inl fun hp => .inr (.inl hp), hr⟩

/-- The blocks may change, with the regions where they were. -/
theorem ErrorFree.change {s t : State} (h : ErrorFree s) (hp : t.part = s.part := by rfl) (hm : t.mem = s.mem := by rfl)
    (he : t.errors = s.errors := by rfl) (ha : t.areaBase = s.areaBase := by rfl) (hb : t.workBase = s.workBase := by rfl)
    (hc : t.cfg = s.cfg := by rfl) (hl : t.list = s.list := by rfl) : ErrorFree t := by
  unfold ErrorFree Working RegionsOk at h ⊢
  rwa [hp, hm, he, ha, hb, hc, hl]

section

variable {s : State} {es : List Event}

theorem ErrorFree.acted (h : ErrorFree s) : Acted s ((events es).foldl act s) := by
  obtain ⟨hw, hr⟩ | hp := h
  · exact acted_acts hr hw
  · rw [events_faulted hp]
    exact .refl s

theorem ErrorFree.events (h : ErrorFree s) : ErrorFree ((events es).foldl act s) := by
  have ha := h.acted (es := es)
  exact h.imp (fun ⟨hw, hr⟩ => ⟨ha.working hw, ha.regionsOk hr⟩) ha.part.trans

theorem events_exposure (h : ErrorFree s) : ((events es).foldl act s).exposure = s.exposure := by
  rw [h.acted.frame]
  rfl

theorem events_bus (h : ErrorFree s) : ((events es).foldl act s).bus = s.bus := by
  rw [h.acted.frame]
  rfl

theorem busReachable_events (h : ErrorFree s) (hb : BusReachable s) : BusReachable ((events es).foldl act s) := by
  rw [BusReachable, events_bus h]
  exact hb

/-- One of the events is reported, unless the part is in FAULTED. -/
theorem events_reported {e : Event} (h : ErrorFree s) (he : e ∈ es) (hk : e.kind < 24) (hp : s.part ≠ .faulted) :
    Reported e.kind ((events es).foldl act s) := by
  obtain ⟨hw, hr⟩ := h.resolve_right hp
  obtain ⟨before, after, rfl⟩ := List.append_of_mem he
  have hbefore : ErrorFree ((Safety.events before).foldl act s) := h.events
  obtain ⟨hw', hr'⟩ := hbefore.resolve_right fun hf => hp (h.acted.part ▸ hf)
  have hreported : Reported e.kind (act ((Safety.events before).foldl act s) (.event e)) := emit_reported hr' hw' hk
  have hact := acted_act (a := .event e) hr' hw'
  have hafter := looked_acts (P := anyAct) (as := Safety.events after) (hact.regionsOk hr') (hact.working hw')
    fun _ _ => trivial
  have hreported := hafter.acting.reported hreported
  rw [← List.foldl_cons (f := act), ← List.foldl_append] at hreported
  rw [Safety.events, List.map_append]
  exact hreported

/-- In FAULTED the unit takes no work and no HALT ends. -/
theorem ended_faulted (hp : s.part = .faulted) : settled (served s) = s := by
  have hs : served s = s := if_neg (by simp [hp])
  rw [hs]
  exact if_neg (by simp [hp])

/-- The unit looks for work, and a HALT may end. -/
theorem settleHalt_busServe (h : ErrorFree s) (hb : BusReachable s) : settleHalt (busServe s) = settled (served s) := by
  rw [busServe_anywhere h hb]
  obtain ⟨hw, hr⟩ | hp := h
  · have hlooked := (served_looked hr hw).acting
    exact settleHalt_settled hlooked.regionsOk hlooked.target_working
  · have hs : served s = s := if_neg (by simp [hp])
    rw [ended_faulted hp, hs]
    exact if_neg (by simp [hp])

/-- A unit that is not in FAULT changes the bus, and the exposure unit where it takes the gain update into hand. -/
theorem served_unfaulted (h : s.bus.state ≠ .fault) : ∃ e b, served s = { s with exposure := e, bus := b }
    ∧ (e = s.exposure ∨ ∃ g, s.bus.pendingGain = some g ∧ e = writing g s.exposure) := by
  have same : ∃ e b, s = { s with exposure := e, bus := b }
      ∧ (e = s.exposure ∨ ∃ g, s.bus.pendingGain = some g ∧ e = writing g s.exposure) := ⟨_, _, rfl, .inl rfl⟩
  simp only [served, if_neg h]
  split
  · split
    · match hg : s.bus.pendingGain, hj : dueEntries s, hq : s.bus.queue with
      | some g, _, _ => rw [takesWork_gain hg]; exact ⟨_, _, rfl, .inr ⟨g, rfl, rfl⟩⟩
      | none, j :: js, _ => rw [takesWork_poll hg hj]; exact ⟨_, _, rfl, .inl rfl⟩
      | none, [], x :: xs => rw [takesWork_host hg hj hq]; exact ⟨_, _, rfl, .inl rfl⟩
      | none, [], [] => rw [takesWork_none hg hj hq]; exact hg ▸ same
    · exact same
  · exact same

/-- The end of a HALT makes a lamp update, and leaves the exposure unit. -/
theorem settled_cases (h : ErrorFree s) : (settled s).exposure = s.exposure
    ∧ ((settled s).lamp = s.lamp ∨ (settled s).lamp = (haltedLamp s).1) := by
  unfold settled
  split
  · exact ⟨events_exposure h, .inr rfl⟩
  · exact ⟨rfl, .inl rfl⟩

/-- The exposure unit keeps its plan, its retry flag and the gain in effect. -/
theorem ended_exposure (h : ErrorFree s) (hf : s.bus.state ≠ .fault) :
    (settled (served s)).exposure.retry = s.exposure.retry
      ∧ (settled (served s)).exposure.gainInEffect = s.exposure.gainInEffect
      ∧ (settled (served s)).exposure.planG = s.exposure.planG := by
  obtain ⟨e, b, hserved, he⟩ := served_unfaulted hf
  have hfree : ErrorFree (served s) := by
    rw [hserved]
    exact h.change
  rw [(settled_cases hfree).1, hserved]
  obtain rfl | ⟨g, -, rfl⟩ := he <;> exact ⟨rfl, rfl, rfl⟩

/-- The lamp unit stays, or is updated at entry to HALTED. -/
theorem ended_lamp (h : ErrorFree s) (hf : s.bus.state ≠ .fault) : (settled (served s)).lamp = s.lamp
    ∨ (settled (served s)).lamp = (haltedLamp s).1 := by
  obtain ⟨e, b, hserved, -⟩ := served_unfaulted hf
  have hfree : ErrorFree (served s) := by
    rw [hserved]
    exact h.change
  have hlamp := (settled_cases hfree).2
  rw [hserved] at hlamp ⊢
  exact hlamp

/-- What was reported before stays reported. -/
theorem ended_reported {k : Nat} (h : ErrorFree s) (hf : s.bus.state ≠ .fault) (hk : Reported k s) :
    Reported k (settled (served s)) := by
  obtain ⟨hw, hr⟩ | hp := h
  · have hserved := (served_quiet (P := anyAct) hr hw hf).acting
    exact (hserved.trans (settled_acting hserved.regionsOk hserved.target_working fun _ => trivial)).reported hk
  · rwa [ended_faulted hp]

end

end Sys2Proof.Proofs

namespace Sys2Proof.Proofs

open Sys2Proof.Machine Sys2Proof.Safety Sys2Proof.Laws

/-! ## Gain writes and polls that fail (R102, R142 to R145, R152) -/

/-- A failed poll, as the rules of the head bus and the lamp unit give it, also of an entry beyond the table (R152). -/
theorem emitting_pollFailed (j : Nat) (o : BusOutcome) (s : State) : emitting (pollFailed j o s) = failedPoll o j s := by
  obtain hj | hj := Nat.lt_or_ge j s.bus.polls.length
  · have hp : s.bus.polls[j]? = some (s.bus.polls.getD j {}) := by simp [List.getD_eq_getElem?_getD, hj]
    simp only [pollFailed, failedPoll, updateAt_eq_set hp, emitting, emitAll_eq, lampPollFailed_eq]
    split <;> simp
  · simp only [pollFailed, failedPoll, updateAt, List.modify_eq_self hj, List.set_eq_of_length_le hj, emitting, emitAll_eq,
      lampPollFailed_eq]
    split <;> simp

/-- What a failed gain write reports (R102). -/
def gainFailure (o : BusOutcome) (v : Nat) (s : State) : List Event :=
  if (writeFailed s.exposure).failures = 3 then [Event.gainWriteFailed v s.exposure.gainInEffect o] else []

/-- What a failed gain write changes besides (R102). -/
def missedGain (s : State) : State := { s with exposure := writeFailed s.exposure }

theorem failedGain_events (o : BusOutcome) (v : Nat) (s : State) :
    failedGain o v s = (events (gainFailure o v s)).foldl act (missedGain s) := by
  rw [failedGain, gainFailure]
  split <;> rfl

section

variable {o : BusOutcome} {s : State} {x : Txn} {next : BusState}

/-- The failed end of a transaction, by its owner. -/
theorem txnEnd_failed {acked : Nat} {read : List Byte} (hx : s.bus.inHand = some x) (hh : ∀ h, x.owner ≠ .host h)
    (ho : o ≠ .success) : txnEnd next o acked read s = failed x.owner o next s := by
  simp only [txnEnd, hx]
  match hw : x.owner with
  | .gain v => exact emitting_gainWriteEnd ho
  | .poll j true => rfl
  | .poll j false => exact (congrArg emitting (if_neg ho)).trans (emitting_pollFailed j o _)
  | .host h => exact absurd hw (hh h)

/-- Once the owner has acted, the unit stands in `next` and can look for work. -/
theorem failed_ends {owner : TxnOwner} (h : ErrorFree s) (hb : BusReachable s) (hh : ∀ h, owner ≠ .host h) :
    ErrorFree (failed owner o next s) ∧ BusReachable (failed owner o next s) ∧ (failed owner o next s).bus.state = next := by
  match owner with
  | .gain v =>
    have hfree : ErrorFree (missedGain (letGo next s)) := h.change
    have heq : failed (.gain v) o next s = _ := failedGain_events o v (letGo next s)
    rw [heq]
    exact ⟨hfree.events, busReachable_events hfree hb, by rw [events_bus hfree]; rfl⟩
  | .poll j true => exact ⟨h.change, hb, rfl⟩
  | .poll j false =>
    have hfree : ErrorFree (missedPoll j (letGo next s)) := h.change
    have hbus : BusReachable (missedPoll j (letGo next s)) := ⟨(List.length_set ..).trans hb.1, hb.2⟩
    exact ⟨hfree.events, busReachable_events hfree hbus, by
      rw [show (failed (.poll j false) o next s).bus = _ from events_bus hfree]
      rfl⟩
  | .host h => exact absurd rfl (hh h)

/-- The state in which a moment finds the unit, with the monitor as it then reads. -/
def foundAt (m : Nat) (busy : Bool) (s : State) : State :=
  { s with now := max s.now m, bus := { s.bus with monitorBusy := busy } }

/-- The failed end of a gain write or a poll, and the search for work that follows it. -/
theorem txnEndServe_failed {acked m : Nat} {read : List Byte} {busy : Bool} (h : ErrorFree s) (hb : BusReachable s)
    (hx : s.bus.inHand = some x) (hh : ∀ h, x.owner ≠ .host h) (ho : o ≠ .success) :
    txnEndServe next o acked read (foundAt m busy s) = settled (served (failed x.owner o next (foundAt m busy s))) := by
  obtain ⟨hfree, hbus, -⟩ := failed_ends (o := o) (next := next) (s := foundAt m busy s) h.change hb hh
  rw [txnEndServe, txnEnd_failed (s := foundAt m busy s) hx hh ho, settleHalt_busServe hfree hbus]

/-! ### The commands -/

theorem exec_busTransactionEnd {m acked : Nat} {e : BusEnd} {read : List Byte} (hs : s.bus.state = .active)
    (hx : s.bus.inHand = some x) (he : endPossible x e acked read = true) :
    exec (.busTransactionEnd m e acked read) s = .next (txnEndServe .idle (endOutcome e) acked read (advance m s)) := by
  change execBusTransactionEnd m e acked read s = _
  simp only [execBusTransactionEnd, hx]
  rw [if_pos ⟨hs, he⟩]

theorem exec_busStuck {m acked : Nat} (hs : s.bus.state = .active) :
    exec (.busStuck m acked) s = .next (txnEndServe .recovery .busStuck acked [] (advance m s)) :=
  congrArg Host.Outcome.next (if_pos hs)

/-- At the retry limit and in FAULTED a loss of arbitration ends the transaction (R144, R157). -/
theorem exec_arbitrationLost {m acked : Nat} (hs : s.bus.state = .active)
    (hl : s.cfg.retryLimit ≤ s.bus.retries ∨ s.part = .faulted) :
    exec (.arbitrationLost m acked) s = .next (txnEndServe .idle .arbLost acked [] (foundAt m true s)) := by
  have hlost : ¬ (s.bus.retries < s.cfg.retryLimit ∧ s.part ≠ .faulted) := fun h =>
    hl.elim (Nat.not_le.2 h.1) h.2
  exact congrArg Host.Outcome.next ((if_pos hs).trans (if_neg hlost))

/-- Below the limit the transaction waits for the bus again (R144). -/
theorem exec_arbitrationLost_waits {m acked : Nat} (hs : s.bus.state = .active)
    (hl : ¬ (s.cfg.retryLimit ≤ s.bus.retries ∨ s.part = .faulted)) :
    exec (.arbitrationLost m acked) s = .next { s with
      now := max s.now m
      bus := { s.bus with
        monitorBusy := true, retries := s.bus.retries + 1, state := .waitFree
        busyTimer := some (max s.now m + s.cfg.busyMs * 1000) } } := by
  have hwaits : s.bus.retries < s.cfg.retryLimit ∧ s.part ≠ .faulted := by
    obtain ⟨hn, hp⟩ := not_or.1 hl
    exact ⟨Nat.not_le.1 hn, hp⟩
  exact congrArg Host.Outcome.next ((if_pos hs).trans (if_pos hwaits))

theorem exec_busBusyTimeout {e : Nat} {stop : Bool} (hs : s.bus.state = .waitFree) (ht : s.bus.busyTimer = some e) :
    exec (.busBusyTimeout stop) s
      = .next (txnEndServe .idle .busyTimeout 0 [] (foundAt e (s.bus.monitorBusy && !stop) s)) := by
  change execBusBusyTimeout s stop = _
  simp only [execBusBusyTimeout, ht]
  rw [if_pos hs]
  rfl

theorem failurePossible_iff : failurePossible s o = true ↔
    s.bus.state = .active ∧ (o = .noAckAddr ∨ o = .noAckData ∨ o = .busStuck
      ∨ o = .arbLost ∧ (s.cfg.retryLimit ≤ s.bus.retries ∨ s.part = .faulted))
    ∨ s.bus.state = .waitFree ∧ o = .busyTimeout := by
  cases o <;> simp [failurePossible]

theorem ne_success_of_possible (h : failurePossible s o = true) : o ≠ .success := by
  rintro rfl
  cases h

theorem exec_gainWriteFailed {m v : Nat} (hx : s.bus.inHand = some x) (hv : x.owner = .gain v)
    (ho : failurePossible s o = true) (hf : s.exposure.failures = 2) : exec (.gainWriteFailed m o) s
      = .next (txnEndServe (afterFailure o) o 0 [] (foundAt m (s.bus.monitorBusy || o == .arbLost) s)) := by
  change execGainWriteFailed m o s = _
  simp only [execGainWriteFailed, hx, hv]
  rw [if_pos ⟨ho, hf⟩]
  rfl

theorem exec_pollFailing {m j : Nat} (hx : s.bus.inHand = some x) (hj : x.owner = .poll j false)
    (ho : failurePossible s o = true) (hf : (s.bus.polls.getD j {}).slot.failures = 3) : exec (.pollFailing m o) s
      = .next (txnEndServe (afterFailure o) o 0 [] (foundAt m (s.bus.monitorBusy || o == .arbLost) s)) := by
  change execPollFailing m o s = _
  simp only [execPollFailing, hx, hj]
  rw [if_pos ⟨trivial, ho, hf⟩]
  rfl

/-! ### The reports -/

/-- The third failure in a row is reported, and the update is to be tried again (R102). -/
theorem failedGain_third {v : Nat} (h : ErrorFree s) (hf : s.exposure.failures = 2) :
    (s.part ≠ .faulted → Reported 21 (failedGain o v s)) ∧ (failedGain o v s).exposure.retry = true
      ∧ (failedGain o v s).exposure.gainInEffect = s.exposure.gainInEffect
      ∧ (failedGain o v s).exposure.planG = s.exposure.planG := by
  have hfree : ErrorFree (missedGain s) := h.change
  have hthird : gainFailure o v s = [Event.gainWriteFailed v s.exposure.gainInEffect o] := if_pos (by simp [writeFailed, hf])
  rw [failedGain_events, events_exposure hfree]
  refine ⟨fun hp => ?_, rfl, rfl, rfl⟩
  exact events_reported (e := Event.gainWriteFailed v s.exposure.gainInEffect o) hfree (by rw [hthird]; exact List.mem_cons_self)
    (show 21 < 24 by decide) hp

/-- The fourth failure is reported (R152). -/
theorem failedPoll_fourth {j : Nat} (h : ErrorFree s) (hf : (s.bus.polls.getD j {}).slot.failures = 3)
    (hp : s.part ≠ .faulted) : Reported 20 (failedPoll o j s) := by
  refine events_reported (s := missedPoll j s) (e := Event.pollFailing j (s.bus.polls.getD j {}).entry.address o) h.change ?_
    (show 20 < 24 by decide) hp
  rw [hf]
  exact List.mem_append_left _ List.mem_cons_self

/-- The third failed gain write in a row, with the search for work after it. -/
theorem thirdGain_ends {v : Nat} (h : ErrorFree s) (hb : BusReachable s) (hv : x.owner = .gain v)
    (hf : s.exposure.failures = 2) (hn : next ≠ .fault) :
    let t := settled (served (failed x.owner o next s))
    (s.part ≠ .faulted → Reported 21 t) ∧ t.exposure.retry = true
      ∧ t.exposure.gainInEffect = s.exposure.gainInEffect ∧ t.exposure.planG = s.exposure.planG := by
  rw [hv]
  obtain ⟨hfree, -, hstate⟩ := failed_ends (o := o) (next := next) (owner := .gain v) h hb nofun
  rw [← hstate] at hn
  obtain ⟨reported, retry, gain, plan⟩ := failedGain_third (o := o) (v := v) (s := letGo next s) h.change hf
  obtain ⟨hretry, hgain, hplan⟩ := ended_exposure hfree hn
  exact ⟨fun hp => ended_reported hfree hn (reported hp), hretry.trans retry, hgain.trans gain, hplan.trans plan⟩

/-- The fourth failure of a poll, with the search for work after it. -/
theorem fourthPoll_ends {j : Nat} (h : ErrorFree s) (hb : BusReachable s) (hj : x.owner = .poll j false)
    (hf : (s.bus.polls.getD j {}).slot.failures = 3) (hn : next ≠ .fault) (hp : s.part ≠ .faulted) :
    Reported 20 (settled (served (failed x.owner o next s))) := by
  rw [hj]
  obtain ⟨hfree, -, hstate⟩ := failed_ends (o := o) (next := next) (owner := .poll j false) h hb nofun
  rw [← hstate] at hn
  exact ended_reported hfree hn (failedPoll_fourth (s := letGo next s) h.change hf hp)

theorem afterFailure_ne_fault (o : BusOutcome) : afterFailure o ≠ .fault := by
  unfold afterFailure
  split <;> decide

end

/-- Settles O41: every command reaches the one failed end of its owner, after which the unit looks for work. -/
theorem failuresCountedAndReported : Obligations.FailuresCountedAndReported := by
  intro m acked e x s hpart hb hx hh busy lost Fails
  have h := errorFree_of_lit hpart
  have fails : ∀ {c o next monitor moment acked read}, o ≠ .success →
      exec c s = .next (txnEndServe next o acked read (foundAt moment monitor s)) → Fails c o next monitor moment :=
    fun ho hc => hc.trans (congrArg Host.Outcome.next (txnEndServe_failed h hb hx hh ho))
  refine ⟨fun hs => ⟨fails (by decide) (exec_busStuck hs), fun read ha => ?_, fun read ha => ?_,
    fun hl => fails (by decide) (exec_arbitrationLost hs hl), exec_arbitrationLost_waits hs⟩,
    fun stop hs ht => fails (by decide) (exec_busBusyTimeout hs ht), ?_⟩
  · exact fails (by decide) (exec_busTransactionEnd (e := .noAckAddr) hs hx (by simpa [endPossible] using ha))
  · exact fails (by decide) (exec_busTransactionEnd (e := .noAckData) hs hx (by simpa [endPossible] using ha))
  · intro o ho next
    have hpossible := failurePossible_iff.2 ho
    have hne := ne_success_of_possible hpossible
    have hfound : ErrorFree (foundAt m (busy || o == .arbLost) s) := h.change
    refine ⟨fun v hv hf => ?_, fun j hj hf => ?_⟩
    · have hexec := fails hne (exec_gainWriteFailed (m := m) hx hv hpossible hf)
      have hends := thirdGain_ends (o := o) (next := next) hfound hb hv hf (afterFailure_ne_fault o)
      exact ⟨hexec, _, hexec, hends⟩
    · have hexec := fails hne (exec_pollFailing (m := m) hx hj hpossible hf)
      have hends := fourthPoll_ends (o := o) (next := next) hfound hb hj hf (afterFailure_ne_fault o)
      exact ⟨hexec, _, hexec, hends⟩

end Sys2Proof.Proofs

namespace Sys2Proof.Proofs

open Sys2Proof.Machine Sys2Proof.Safety Sys2Proof.Laws

/-! ## The levels of a lamp update stay within the ceiling (R84) -/

theorem cappedLevel_le (part : PartState) (stillLevel : Nat) (l : Lamp) (c : Channel) :
    cappedLevel part stillLevel l c ≤ l.ceiling := Nat.min_le_right ..

/-- Every channel served takes at most what it wants. -/
theorem serveChannels_le {part : PartState} {t tCap budget top : Nat} : ∀ {ps : List (Channel × Nat)} {spent : Nat} {cut : Bool},
    (∀ p ∈ ps, p.2 ≤ top) → ∀ n ∈ serveChannels part t tCap budget ps spent cut, n ≤ top
  | [], _, _, _, n, hn => nomatch hn
  | (c, w) :: ps, spent, cut, hp, n, hn => by
    have hrest : ∀ p ∈ ps, p.2 ≤ top := fun p hm => hp p (List.mem_cons_of_mem _ hm)
    rw [serveChannels] at hn
    split at hn
    · obtain rfl | hn := List.mem_cons.1 hn
      · split
        · exact Nat.zero_le _
        · exact (largestLevel_le _ _).trans (hp _ List.mem_cons_self)
      · exact serveChannels_le hrest n hn
    · obtain rfl | hn := List.mem_cons.1 hn
      · exact Nat.zero_le _
      · exact serveChannels_le hrest n hn

theorem mem_zipWith {α β γ : Type} {f : α → β → γ} {as : List α} {bs : List β} {c : γ} (h : c ∈ List.zipWith f as bs) :
    ∃ a ∈ as, ∃ b ∈ bs, c = f a b := by
  rw [← List.map_uncurry_zip_eq_zipWith] at h
  obtain ⟨⟨a, b⟩, hm, rfl⟩ := List.mem_map.1 h
  obtain ⟨ha, hb⟩ := List.of_mem_zip hm
  exact ⟨a, ha, b, hb, rfl⟩

theorem lampLevels_le (part : PartState) (stillLevel : Nat) (l : Lamp) :
    ∀ n ∈ (lampLevels part stillLevel l).levels, n ≤ l.ceiling := by
  intro n hn
  obtain ⟨c, -, m, hm, rfl⟩ := mem_zipWith hn
  have hserved : m ≤ l.ceiling := by
    refine serveChannels_le (fun p hp => ?_) m hm
    obtain ⟨c, -, rfl⟩ := List.mem_map.1 hp
    exact cappedLevel_le ..
  split
  · dsimp only
    split
    · exact cappedLevel_le ..
    · split
      · exact (Nat.min_le_left ..).trans (Nat.min_le_right ..)
      · exact Nat.zero_le _
  · exact hserved

/-- No lamp update applies a level above the ceiling. -/
theorem lampUpdate_applied_le {part : PartState} {stillLevel : Nat} {l : Lamp} :
    ∀ c ∈ (lampUpdate part stillLevel l).1.channels, c.applied ≤ l.ceiling := by
  intro c hc
  obtain ⟨_, -, n, hn, rfl⟩ := mem_zipWith hc
  exact lampLevels_le part stillLevel l n hn

/-! ## A temperature reading (R80, R82) -/

section

variable {part : PartState} {cfg : Cfg} {t : Int} {l : Lamp}

/-- The cut latch after a reading (R80). -/
def cutAfter (cfg : Cfg) (cut : Bool) (t : Int) : Bool :=
  if cut then decide (cfg.tCut - cfg.hysteresis < t) else decide (cfg.tCut ≤ t)

/-- The events of the cut latch (R80). -/
def cutEvents (cfg : Cfg) (cut : Bool) (t : Int) : List Event :=
  if cut = cutAfter cfg cut t then []
  else if cutAfter cfg cut t then [Event.thermalCut t cfg.tCut] else [Event.thermalRestore t]

theorem cutLatch_eq (cfg : Cfg) (cut : Bool) (t : Int) : cutLatch cfg cut t = (cutAfter cfg cut t, cutEvents cfg cut t) := by
  unfold cutLatch cutEvents cutAfter
  cases cut
  · by_cases h : cfg.tCut ≤ t <;> simp [h]
  · by_cases h : t ≤ cfg.tCut - cfg.hysteresis
    · simp [h, Int.not_lt.2 h]
    · simp [h, Int.not_le.1 h]

/-- The lamp unit with the reading, its ceiling not yet computed (R80). -/
def readAt (cfg : Cfg) (t : Int) (l : Lamp) : Lamp :=
  { l with temp := some t, tempAge := 0, tempFails := 0, stale := false, cut := cutAfter cfg l.cut t }

theorem lampReading_eq : lampReading part cfg t l =
    ((recomputeCeiling part cfg (readAt cfg t l)).1, cutEvents cfg l.cut t ++ (recomputeCeiling part cfg (readAt cfg t l)).2) := by
  rw [lampReading, cutLatch_eq]
  rfl

theorem recomputeCeiling_temperature (l : Lamp) : (recomputeCeiling part cfg l).1.temp = l.temp
    ∧ (recomputeCeiling part cfg l).1.stale = l.stale ∧ (recomputeCeiling part cfg l).1.cut = l.cut := by
  unfold recomputeCeiling
  split <;> exact ⟨rfl, rfl, rfl⟩

/-- In the cut the ceiling is 0, and the channels go dark where it comes down. -/
theorem recomputeCeiling_cut (hc : cutAfter cfg l.cut t = true) (hl : l.ceiling ≠ 0) :
    (recomputeCeiling part cfg (readAt cfg t l)).1.ceiling = 0
      ∧ ∀ c ∈ (recomputeCeiling part cfg (readAt cfg t l)).1.channels, c.applied = 0 := by
  have hceiling : thermalCeiling cfg (readAt cfg t l) = 0 := by simp [thermalCeiling, readAt, hc]
  rw [recomputeCeiling, hceiling, if_neg (by exact hl.symm)]
  exact ⟨rfl, fun c hm => Nat.le_zero.1 (lampUpdate_applied_le c hm)⟩

theorem temperatureOf_pair (hi lo : Byte) : temperatureOf [hi, lo] = Int.fdiv (hi ++ lo).toInt 128 :=
  congrArg (fun b : BitVec 16 => Int.fdiv b.toInt 128) (ofNat_bytes hi lo)

/-- Half degrees from −256 to 255 (R152). -/
theorem temperature_range (b : BitVec 16) : -256 ≤ Int.fdiv b.toInt 128 ∧ Int.fdiv b.toInt 128 ≤ 255 := by
  have hl := BitVec.le_toInt b
  have hu := BitVec.toInt_lt (x := b)
  rw [Int.fdiv_eq_ediv_of_nonneg _ (by decide)]
  omega

end

/-! ## Gain writes and polls that succeed (R101, R102, R152) -/

section

variable {s : State} {x : Txn} {m : Nat}

/-- The state after a gain write that succeeded: in RUNNING a gain that the plan has come to meanwhile is handed, and
an update queued behind the write stays (R101, R102). -/
def gainWritten (v : Nat) (s : State) : State :=
  let e := s.exposure
  let hands := s.part = .running ∧ e.behind = false ∧ e.planG ≠ v
  { s with
    bus := { s.bus with pendingGain := if hands then some e.planG else s.bus.pendingGain }
    exposure := { e with
      gainInEffect := v, failures := 0, retry := false, behind := false
      gws := if hands ∨ e.behind = true then .queued else .idle
      handedGain := if hands then some e.planG else if e.behind then e.handedGain else none } }

/-- The exposure unit with the value written, its gain write state still to follow (R102). -/
def wrote (v : Nat) (e : Exposure) : Exposure := { e with gainInEffect := v, failures := 0, retry := false }

theorem gainWriteEnd_success (v : Nat) (s : State) : emitting (gainWriteEnd v .success s) = gainWritten v s := by
  cases hb : s.exposure.behind with
  | true =>
    have hafter : afterWrite (wrote v s.exposure) = { wrote v s.exposure with gws := .queued, behind := false } := if_pos hb
    change (if (afterWrite (wrote v s.exposure)).gws = .idle then _ else { s with exposure := afterWrite (wrote v s.exposure) }) = _
    rw [hafter, if_neg (by simp)]
    simp [gainWritten, wrote, hb]
  | false =>
    have hafter : afterWrite (wrote v s.exposure) = { wrote v s.exposure with gws := .idle, handedGain := none } :=
      if_neg (by simp [wrote, hb])
    change (if (afterWrite (wrote v s.exposure)).gws = .idle then handGain { s with exposure := afterWrite (wrote v s.exposure) }
      else _) = _
    rw [hafter, if_pos rfl]
    by_cases hp : s.part = .running
    · rw [handGain_idle (by exact hp) rfl]
      by_cases hg : s.exposure.planG = v <;> simp [gainWritten, wrote, hb, hp, hg]
    · rw [handGain_other (by exact hp)]
      simp [gainWritten, wrote, hb, hp]

/-- The poll table with the bytes read in the slot of entry `j` (R152). -/
def pollKept (j : Nat) (p : Poll) (read : List Byte) (s : State) : State := { s with bus := { s.bus with
  polls := s.bus.polls.set j { p with slot := { held := true, bytes := read, age := 0, failures := 0 } } } }

/-- The state once a temperature reading has reached the lamp unit (R80). -/
def temperatureTaken (t : Int) (s : State) : State :=
  let r := lampReading s.part s.cfg t s.lamp
  { (events r.2).foldl act s with lamp := r.1 }

theorem pollSucceeded_eq {j : Nat} {p : Poll} {read : List Byte} (hp : s.bus.polls[j]? = some p) :
    emitting (pollSucceeded j read s) = if p.entry.role = .temperature
      then lampDo (lampReading s.part s.cfg (temperatureOf read) s.lamp) (pollKept j p read s) else pollKept j p read s := by
  have hd : s.bus.polls.getD j {} = p := by rw [List.getD_eq_getElem?_getD, hp]; rfl
  simp only [pollSucceeded, hd, updateAt_eq_set hp]
  split <;> rfl

theorem pollSucceeded_general {j : Nat} {p : Poll} {read : List Byte} (hp : s.bus.polls[j]? = some p)
    (hr : p.entry.role = .general) : emitting (pollSucceeded j read s) = pollKept j p read s := by
  rw [pollSucceeded_eq hp, hr]
  exact if_neg nofun

theorem pollSucceeded_temperature {j : Nat} {p : Poll} {hi lo : Byte} (h : ErrorFree s) (hp : s.bus.polls[j]? = some p)
    (hr : p.entry.role = .temperature) : emitting (pollSucceeded j [hi, lo] s)
      = temperatureTaken (Int.fdiv (hi ++ lo).toInt 128) (pollKept j p [hi, lo] s) := by
  have hkept : ErrorFree (pollKept j p [hi, lo] s) := h.change
  rw [pollSucceeded_eq hp, if_pos hr, temperatureOf_pair]
  exact lampDo_events hkept

/-- The successful end of a transaction, by what its owner makes of it, and the search for work after it. -/
theorem exec_success {read : List Byte} {u : State} (hs : s.bus.state = .active) (hx : s.bus.inHand = some x)
    (hl : read.length = x.readLen)
    (hu : txnEnd .idle .success x.write.length read (advance m s) = u) (h : ErrorFree u) (hb : BusReachable u) :
    exec (.busTransactionEnd m .success x.write.length read) s = .next (settled (served u)) := by
  rw [exec_busTransactionEnd (e := .success) hs hx (by simp [endPossible, hl]), txnEndServe]
  exact congrArg Host.Outcome.next ((congrArg (fun t => settleHalt (busServe t)) hu).trans (settleHalt_busServe h hb))

theorem txnEnd_gain {v acked : Nat} {next : BusState} {o : BusOutcome} {read : List Byte} (hx : s.bus.inHand = some x)
    (hv : x.owner = .gain v) : txnEnd next o acked read s = emitting (gainWriteEnd v o (letGo next s)) := by
  simp only [txnEnd, hx, hv]
  rfl

theorem txnEnd_poll {j acked : Nat} {replaced : Bool} {next : BusState} {o : BusOutcome} {read : List Byte}
    (hx : s.bus.inHand = some x) (hj : x.owner = .poll j replaced) :
    txnEnd next o acked read s = emitting (pollEnd j replaced o read (letGo next s)) := by
  simp only [txnEnd, hx, hj]
  rfl

theorem temperatureTaken_free {t : Int} (h : ErrorFree s) : ErrorFree (temperatureTaken t s) :=
  ErrorFree.change (s := (events (lampReading s.part s.cfg t s.lamp).2).foldl act s) h.events

theorem temperatureTaken_bus {t : Int} (h : ErrorFree s) : (temperatureTaken t s).bus = s.bus := events_bus h

theorem temperatureTaken_reachable {t : Int} (h : ErrorFree s) (hb : BusReachable s) : BusReachable (temperatureTaken t s) := by
  rw [BusReachable, temperatureTaken_bus h]
  exact hb

theorem temperatureTaken_lamp (t : Int) (s : State) :
    (temperatureTaken t s).lamp = (recomputeCeiling s.part s.cfg (readAt s.cfg t s.lamp)).1 := by
  rw [temperatureTaken, lampReading_eq]

/-- A change of the cut latch is reported (R80). -/
theorem temperatureTaken_reported {t : Int} (h : ErrorFree s) (hp : s.part ≠ .faulted) :
    (s.lamp.cut = false → cutAfter s.cfg s.lamp.cut t = true → Reported 14 (temperatureTaken t s))
      ∧ (s.lamp.cut = true → cutAfter s.cfg s.lamp.cut t = false → Reported 15 (temperatureTaken t s)) := by
  have reported : ∀ e ∈ cutEvents s.cfg s.lamp.cut t, e.kind < 24 → Reported e.kind (temperatureTaken t s) := by
    intro e he hk
    refine events_reported (es := (lampReading s.part s.cfg t s.lamp).2) h ?_ hk hp
    rw [lampReading_eq]
    exact List.mem_append_left _ he
  refine ⟨fun hl hc => ?_, fun hl hc => ?_⟩
  · exact reported (Event.thermalCut t s.cfg.tCut) (by simp [cutEvents, hl, hl ▸ hc]) (show 14 < 24 by decide)
  · exact reported (Event.thermalRestore t) (by simp [cutEvents, hl, hl ▸ hc]) (show 15 < 24 by decide)

/-- A reading, with the search for work after it and the end of a HALT. -/
theorem temperatureTaken_ends {temp : Int} (h : ErrorFree s) (hn : s.bus.state ≠ .fault) :
    let cut := cutAfter s.cfg s.lamp.cut temp
    let t := settled (served (temperatureTaken temp s))
    t.lamp.temp = some temp ∧ t.lamp.stale = false ∧ t.lamp.cut = cut
      ∧ (s.part ≠ .faulted → s.lamp.cut = false → cut = true → Reported 14 t)
      ∧ (s.part ≠ .faulted → s.lamp.cut = true → cut = false → Reported 15 t)
      ∧ (cut = true → s.lamp.ceiling ≠ 0 → ∀ c ∈ t.lamp.channels, c.applied = 0) := by
  intro cut t
  have hfree : ErrorFree (temperatureTaken temp s) := temperatureTaken_free h
  have hbus : (temperatureTaken temp s).bus.state ≠ .fault := by rwa [temperatureTaken_bus h]
  obtain ⟨htemp, hstale, hcut⟩ := recomputeCeiling_temperature (part := s.part) (cfg := s.cfg) (readAt s.cfg temp s.lamp)
  have hdark := recomputeCeiling_cut (part := s.part) (cfg := s.cfg) (t := temp) (l := s.lamp)
  rw [← temperatureTaken_lamp] at htemp hstale hcut hdark
  have hreports : (s.part ≠ .faulted → s.lamp.cut = false → cut = true → Reported 14 t)
      ∧ (s.part ≠ .faulted → s.lamp.cut = true → cut = false → Reported 15 t) :=
    ⟨fun hp hl hc => ended_reported hfree hbus ((temperatureTaken_reported h hp).1 hl hc),
      fun hp hl hc => ended_reported hfree hbus ((temperatureTaken_reported h hp).2 hl hc)⟩
  obtain hlamp | hlamp := ended_lamp hfree hbus
  · simp only [t, hlamp]
    exact ⟨htemp, hstale, hcut, hreports.1, hreports.2, fun hc hl => (hdark hc hl).2⟩
  · simp only [t, hlamp]
    refine ⟨htemp, hstale, hcut, hreports.1, hreports.2, fun hc hl c hm => ?_⟩
    have hle := lampUpdate_applied_le c hm
    exact Nat.le_zero.1 (hle.trans (hdark hc hl).1.le)

end

/-- Settles O54: what each owner makes of a success, after which the unit looks for work. -/
theorem gainAndPollSuccess : Obligations.GainAndPollSuccess := by
  intro m x s hpart hb hs hx freed Ends
  have h : ErrorFree freed := (errorFree_of_lit hpart).change
  refine ⟨fun v hv hl => ?_, fun j read hj hl => ?_, fun j p read hj hp hl => ?_⟩
  · exact exec_success hs hx hl.symm ((txnEnd_gain (s := advance m s) hx hv).trans (gainWriteEnd_success v freed)) h.change hb
  · exact exec_success hs hx hl (txnEnd_poll (s := advance m s) hx hj) h hb
  · intro polls kept
    have hkept : ErrorFree kept := h.change
    have hbus : BusReachable kept := ⟨(List.length_set ..).trans hb.1, hb.2⟩
    have hend : txnEnd .idle .success x.write.length read (advance m s) = emitting (pollSucceeded j read freed) :=
      txnEnd_poll (s := advance m s) hx hj
    refine ⟨fun hr => exec_success hs hx hl (hend.trans (pollSucceeded_general hp hr)) hkept hbus, fun hi lo hr hread => ?_⟩
    intro temp cut reading ceiling lit latch
    subst hread
    have hexec := exec_success hs hx hl (hend.trans (pollSucceeded_temperature h hp hr)) (temperatureTaken_free hkept)
      (temperatureTaken_reachable hkept hbus)
    have htaken : temperatureTaken temp kept = { (events (latch ++ lit.2)).foldl act kept with lamp := lit.1 } := by
      rw [temperatureTaken, lampReading_eq]
      rfl
    obtain ⟨hlow, hhigh⟩ := temperature_range (hi ++ lo)
    refine ⟨?_, hlow, hhigh, _, hexec, temperatureTaken_ends hkept nofun⟩
    rw [← htaken]
    exact hexec

end Sys2Proof.Proofs

namespace Sys2Proof.Proofs

open Sys2Proof.Machine Sys2Proof.Safety Sys2Proof.Laws

/-! ## EXPOSURE_SET in RUNNING (R95) -/

theorem clampNat_clampNat (lo hi x : Nat) : clampNat lo hi (clampNat lo hi x) = clampNat lo hi x := by
  simp only [clampNat]
  omega

theorem clampNat_zero (hi x : Nat) : clampNat 0 hi x = min hi x := by rw [clampNat, Nat.zero_max]

/-- A value brought into its range where it stands already, or is brought there now. -/
theorem clampNat_expParam (args : List Byte) (k lo hi value current : Nat) :
    clampNat lo hi (expParam args k lo hi value current)
      = clampNat lo hi (if (u16 args 2).testBit k then value else current) := by
  rw [expParam, expPresent_eq]
  split
  · exact clampNat_clampNat ..
  · rfl

/-- The exposure unit once the parameters, the mode and the plan are taken (R95). -/
def exposureTaken (args : List Byte) (l : Lamp) (e : Exposure) : Exposure := expWithin l (exposureSetManual args e)

section

variable {args : List Byte} {l : Lamp} {e : Exposure}

@[simp] theorem expParams_mode : (expParams args e).mode = e.mode := rfl

/-- In MANUAL the present manual values, brought into their ranges (R94, R95). -/
theorem exposureTaken_manual (h : expMode args e.mode = .manual) :
    exposureTaken args l e = { expParams args e with
      mode := .manual, lCap := (expParams args e).lMax
      planT := clampNat (expParams args e).tMin (expParams args e).tMax (if (u16 args 2).testBit 9 then u32 args 28 else e.planT)
      planG := clampNat 256 (expParams args e).gMax (if (u16 args 2).testBit 10 then u16 args 32 else e.planG)
      planL := min (expParams args e).lMax (if (u16 args 2).testBit 11 then u16 args 34 else e.planL) } := by
  have hm : exposureSetManual args e = { expParams args e with
      mode := expMode args e.mode
      planT := expParam args 9 (expParams args e).tMin (expParams args e).tMax (u32 args 28) e.planT
      planG := expParam args 10 256 (expParams args e).gMax (u16 args 32) e.planG
      planL := expParam args 11 0 (expParams args e).lMax (u16 args 34) e.planL } := if_pos h
  have hl := clampNat_expParam args 11 0 (expParams args e).lMax (u16 args 34) e.planL
  rw [clampNat_zero, clampNat_zero, Nat.min_comm] at hl
  rw [exposureTaken, hm, expWithin]
  simp only [h, clampNat_expParam, hl]

/-- In AUTO the plan stays, within the bounds now in force (R94, R95). -/
theorem exposureTaken_auto (h : expMode args e.mode = .auto) :
    exposureTaken args l e = { expParams args e with
      mode := .auto, lCap := min (min l.ceiling l.cap) (expParams args e).lMax
      planT := clampNat (expParams args e).tMin (expParams args e).tMax e.planT
      planG := clampNat 256 (expParams args e).gMax e.planG
      planL := min e.planL (min (min l.ceiling l.cap) (expParams args e).lMax) } := by
  have hm : exposureSetManual args e = { expParams args e with mode := expMode args e.mode } :=
    if_neg (by simp [h])
  rw [exposureTaken, hm, expWithin]
  simp only [h]
  rfl

/-- The parameters present are brought into their ranges (R95). -/
theorem expParams_eq (args : List Byte) (e : Exposure) :
    let has := fun n : Nat => (u16 args 2).testBit n
    let tMin := if has 0 then clampNat 20 200000 (u32 args 4) else e.tMin
    let tMax := if has 2 then clampNat 20 200000 (u32 args 12) else e.tMax
    expParams args e = { e with
      tMin := tMin, tMax := tMax
      tPref := clampNat tMin tMax (if has 1 then u32 args 8 else e.tPref)
      gMax := if has 3 then clampNat 256 4096 (u16 args 16) else e.gMax
      lMin := if has 4 then min 1023 (u16 args 18) else e.lMin
      lMax := if has 5 then min 1023 (u16 args 20) else e.lMax
      target := if has 6 then clampNat 16 235 (u8 args 22) else e.target
      tolerance := if has 7 then min 32 (u8 args 23) else e.tolerance
      damping := if has 8 then clampNat 1 16 (u8 args 24) else e.damping } := by
  simp only [expParams, expParam, expPresent_eq, clampNat_zero]

/-- The mode and the plan apart, the unit has the parameters. -/
theorem exposureTaken_frame : exposureTaken args l e = { expParams args e with
    mode := expMode args e.mode, planT := (exposureTaken args l e).planT, planG := (exposureTaken args l e).planG
    planL := (exposureTaken args l e).planL, lCap := (exposureTaken args l e).lCap } := by
  match h : expMode args e.mode with
  | .manual => rw [exposureTaken_manual h]
  | .auto => rw [exposureTaken_auto h]

theorem exposureTaken_mode : (exposureTaken args l e).mode = expMode args e.mode :=
  congrArg Exposure.mode exposureTaken_frame

/-- The plan in MANUAL, by the bounds now in force. -/
theorem exposureTaken_manualPlan (h : (exposureTaken args l e).mode = .manual) :
    let x := exposureTaken args l e
    x.lCap = x.lMax ∧ x.planT = clampNat x.tMin x.tMax (if (u16 args 2).testBit 9 then u32 args 28 else e.planT)
      ∧ x.planG = clampNat 256 x.gMax (if (u16 args 2).testBit 10 then u16 args 32 else e.planG)
      ∧ x.planL = min x.lMax (if (u16 args 2).testBit 11 then u16 args 34 else e.planL) := by
  rw [exposureTaken_manual (exposureTaken_mode.symm.trans h)]
  exact ⟨rfl, rfl, rfl, rfl⟩

/-- The plan in AUTO, by the bounds now in force. -/
theorem exposureTaken_autoPlan (h : (exposureTaken args l e).mode = .auto) :
    let x := exposureTaken args l e
    x.lCap = min (min l.ceiling l.cap) x.lMax ∧ x.planT = clampNat x.tMin x.tMax e.planT
      ∧ x.planG = clampNat 256 x.gMax e.planG ∧ x.planL = min e.planL x.lCap := by
  rw [exposureTaken_auto (exposureTaken_mode.symm.trans h)]
  exact ⟨rfl, rfl, rfl, rfl⟩

end

/-! ### The gain handed (R101) -/

/-- The exposure unit and the pending gain update changed. -/
def withGain (x : Exposure) (g : Option Nat) (s : State) : State :=
  { s with exposure := x, bus := { s.bus with pendingGain := g } }

/-- The gain path of `e` changed, and nothing else of it. -/
def SameButGain (e x : Exposure) : Prop := x = { e with
  gws := x.gws, handedGain := x.handedGain, busGain := x.busGain, behind := x.behind, retry := x.retry }

theorem SameButGain.plan {e x : Exposure} (h : SameButGain e x) : x.planT = e.planT ∧ x.planG = e.planG := by
  unfold SameButGain at h
  rw [h]
  exact ⟨rfl, rfl⟩

theorem SameButGain.clear {e x : Exposure} (h : SameButGain e x) : SameButGain e { x with retry := false } := by
  unfold SameButGain at h ⊢
  rw [h]

theorem SameButGain.writing {e x : Exposure} (h : SameButGain e x) (g : Nat) : SameButGain e (writing g x) := by
  unfold SameButGain at h ⊢
  rw [h]
  rfl

/-- What handing the gain of the plan can do to the exposure unit and the pending gain update (R101). -/
structure Handing (s : State) (x : Exposure) (g : Option Nat) : Prop where
  same : SameButGain s.exposure x
  /-- A gain that differs from the gain in effect is the update handed, whether or not it still waits. -/
  update : (s.bus.pendingGain = none ∨ s.bus.pendingGain = s.exposure.handedGain) →
    s.exposure.planG ≠ s.exposure.gainInEffect → x.handedGain = some s.exposure.planG ∧ (g = none ∨ g = some s.exposure.planG)

theorem handGain_handing {s : State} (hp : s.part = .running) : ∃ x g, handGain s = withGain x g s ∧ Handing s x g := by
  have stays (hg : s.exposure.handedGain = some s.exposure.planG) : ∃ x g, s = withGain x g s ∧ Handing s x g :=
    ⟨_, _, rfl, rfl, fun h _ => ⟨hg, hg ▸ h⟩⟩
  match hw : s.exposure.gws with
  | .idle =>
    rw [handGain_idle hp hw]
    split
    · exact ⟨_, _, rfl, rfl, fun _ _ => ⟨rfl, .inr rfl⟩⟩
    · rename_i h
      exact ⟨_, _, rfl, rfl, fun _ hg => absurd (.inr hg) h⟩
  | .queued =>
    rw [handGain_queued hp hw]
    split
    · exact stays ‹_›
    · split
      · exact ⟨_, _, rfl, rfl, fun _ hg => absurd ‹_› hg⟩
      · exact ⟨_, _, rfl, rfl, fun _ _ => ⟨rfl, .inr rfl⟩⟩
  | .writing =>
    rw [handGain_writing hp hw]
    split
    · exact stays ‹_›
    · exact ⟨_, _, rfl, rfl, fun _ _ => ⟨rfl, .inr rfl⟩⟩

/-- The state after the gain path's part of an EXPOSURE_SET (R95). -/
def gainHanded (e : Exposure) (s : State) : State :=
  let handed := handGain { s with exposure := e }
  { handed with exposure := { handed.exposure with retry := false } }

theorem gainHanded_handing {e : Exposure} {s : State} (hp : s.part = .running) : ∃ x g,
    gainHanded e s = withGain x g s ∧ Handing { s with exposure := e } x g ∧ x.retry = false := by
  obtain ⟨x, g, heq, hh⟩ := handGain_handing (s := { s with exposure := e }) hp
  refine ⟨{ x with retry := false }, g, ?_, ⟨hh.same.clear, hh.update⟩, rfl⟩
  simp only [gainHanded, heq]
  rfl

/-! ### The operation and what follows it -/

/-- A quiet unit takes at most one transaction into hand (R150). -/
theorem busServe_quiet {s : State} (hq : BusQuiet s) : busServe s = served s := by
  obtain ⟨hf, hbusy⟩ := hq
  by_cases hp : s.part = .running ∧ s.bus.inHand = none
  · obtain ⟨hrun, hfree⟩ := hp
    have hempty : s.bus.queue = [] := hbusy.resolve_left (by simp [hfree])
    simp only [served, if_neg hf, if_pos (And.intro hrun hfree)]
    split
    · rename_i hi
      have hm : mayTake s = true := by simp [mayTake, hrun, hi, hfree]
      rw [busServe, serveBus, if_pos hm]
      match hg : s.bus.pendingGain, hj : dueEntries s with
      | some g, _ =>
        rw [takesWork_gain hg, takeNext_gain hg, takeIntoHand_idle (by exact hi)]
        exact if_neg fun h => taken_state _ _ h.1
      | none, j :: js =>
        rw [takesWork_poll hg hj, takeNext_poll hg hj, takeIntoHand_idle (by exact hi)]
        exact if_neg fun h => taken_state _ _ h.1
      | none, [] => rw [takesWork_none hg hj hempty, takeNext_none hg hj hempty]
    · rename_i hi
      exact if_neg (by simp [mayTake, hi, hf])
  · rw [served, if_neg hp]
    refine if_neg fun hm => hp ?_
    simp only [mayTake, Bool.and_eq_true, beq_iff_eq, Option.isNone_iff_eq_none] at hm
    exact ⟨hm.1.1, hm.2⟩

/-- The search for work leaves the part RUNNING and no LIST_RESYNC waiting: nothing follows the hand-over. -/
theorem finishHand_served {s : State} (h : Reaching s) (hw : s.list.resyncWaiting = false) :
    finishHand (served s) = served s := by
  refine finishHand_running ((served_serves h).reaching h).running ?_
  rw [(served_looked h.regions h.working).acting.list_eq]
  exact hw

section

variable {r : Request} {s : State} {e : Exposure}

/-- The state in which an EXPOSURE_SET has been answered, before the head bus unit looks for work (log entry 9). -/
def exposureAnswered (r : Request) (e : Exposure) (s : State) : State :=
  answered r.slot (if exposureMoved r.args e then 1 else 0) e.planT e.planG (gainHanded e s)

theorem exposureMoved_taken (args : List Byte) (l : Lamp) (e : Exposure) : exposureMoved args (exposureTaken args l e)
    = exposureSetClamped args (expParams args e) (exposureSetManual args e) := exposureMoved_eq args e l

theorem exposureSetOp_running (hp : s.part = .running) (hr : RegionsOk s) (hs : r.slot + 64 ≤ 2 ^ 32)
    (hn : exposureSetRefused r.args s.exposure = false) :
    exposureSetOp r s = busServe (exposureAnswered r (exposureTaken r.args s.lamp s.exposure) s) := by
  generalize he : exposureTaken r.args s.lamp s.exposure = e
  obtain ⟨x, g, heq, hh, -⟩ := gainHanded_handing (e := e) hp
  obtain ⟨hT, hG⟩ := hh.same.plan
  have hanswer := fun code : Nat => complete_working (slot := r.slot) (code := code) (w0 := e.planT) (w1 := e.planG)
    (s := withGain x g s) (.inl hp) hr.2.1 hs
  have hop : exposureSetOp r s = onward (complete r.slot (if exposureMoved r.args e then 1 else 0)
      (gainHanded e s).exposure.planT (gainHanded e s).exposure.planG (gainHanded e s)) busServe := by
    rw [exposureSetOp, if_neg (by simp [hn]), ← he, exposureMoved_taken]
    rfl
  rw [hop, exposureAnswered, heq]
  change onward (complete r.slot _ x.planT x.planG _) busServe = _
  rw [hT, hG, hanswer]
  exact onward_of_ne (s := answered r.slot _ e.planT e.planG (withGain x g s)) (by simp [withGain, hp])

/-- What an EXPOSURE_SET that gives `e` leaves (R95): the exposure unit but for its gain path, the gain handed, the
answer, and everything but the head bus unit as it was. -/
structure ExposureSet (r : Request) (e : Exposure) (s t : State) : Prop where
  same : SameButGain e t.exposure
  retry : t.exposure.retry = false
  update : (s.bus.pendingGain = none ∨ s.bus.pendingGain = e.handedGain) → e.planG ≠ e.gainInEffect →
    t.exposure.handedGain = some e.planG
  holds : HoldsAnswer r.slot (if exposureMoved r.args e then 1 else 0) e.planT e.planG t
  outside : SameOutside [slotHead r.slot] s t
  list : t.list = s.list
  frame : t = { s with mem := t.mem, attention := t.attention, exposure := t.exposure, bus := t.bus }

/-- The answer, with the update that may still wait. -/
theorem exposureAnswered_set (hp : s.part = .running) (hr : RegionsOk s) : ExposureSet r e s (exposureAnswered r e s)
    ∧ (exposureAnswered r e s).bus = { s.bus with pendingGain := (exposureAnswered r e s).bus.pendingGain }
    ∧ ((s.bus.pendingGain = none ∨ s.bus.pendingGain = e.handedGain) → e.planG ≠ e.gainInEffect →
      (exposureAnswered r e s).bus.pendingGain = none ∨ (exposureAnswered r e s).bus.pendingGain = some e.planG)
    ∧ Reaching (exposureAnswered r e s) := by
  have hreach : Reaching s := ⟨hp, hr⟩
  obtain ⟨x, g, heq, hh, hretry⟩ := gainHanded_handing (e := e) hp
  rw [exposureAnswered, heq]
  exact ⟨{ same := hh.same, retry := hretry, update := fun hw hg => (hh.update hw hg).1
           holds := answered_holds (s := withGain x g s) hr.1
           outside := fun a ha => read_answered (s := withGain x g s) hr.1 (ha _ (List.mem_singleton_self _))
           list := rfl, frame := rfl }, rfl, fun hw hg => (hh.update hw hg).2,
    Reaching.act (s := withGain x g s) hreach.change (.answer r.slot _ e.planT e.planG)⟩

/-- A unit that is not in FAULT may take the update into hand. -/
theorem ExposureSet.served {u : State} (h : ExposureSet r e s u) (hn : u.bus.state ≠ .fault)
    (hw : (s.bus.pendingGain = none ∨ s.bus.pendingGain = e.handedGain) → e.planG ≠ e.gainInEffect →
      u.bus.pendingGain = none ∨ u.bus.pendingGain = some e.planG) : ExposureSet r e s (Safety.served u) := by
  obtain ⟨x, b, hserved, hx⟩ := served_unfaulted hn
  rw [hserved]
  refine { same := ?_, retry := ?_, update := fun hp hg => ?_, holds := holdsAnswer_kept h.holds (fun _ _ => rfl) h.holds.2.2.2
           outside := h.outside, list := h.list, frame := ?_ }
  · obtain rfl | ⟨g, -, rfl⟩ := hx
    exacts [h.same, h.same.writing g]
  · obtain rfl | ⟨g, -, rfl⟩ := hx <;> exact h.retry
  · obtain rfl | ⟨g, hg', rfl⟩ := hx
    · exact h.update hp hg
    · exact hg'.symm.trans ((hw hp hg).resolve_left fun hnone => nomatch hg'.symm.trans hnone)
  · conv_lhs => rw [h.frame]

theorem ExposureSet.exposure {t : State} (h : ExposureSet r e s t) : t.exposure = { e with
    gws := t.exposure.gws, handedGain := t.exposure.handedGain, busGain := t.exposure.busGain
    behind := t.exposure.behind, retry := false } := by
  have hsame : t.exposure = _ := h.same
  rwa [h.retry] at hsame

/-- An EXPOSURE_SET that is not refused. -/
theorem exec_exposureSet (h : InHand 2 r s) (hn : exposureSetRefused r.args s.exposure = false) :
    ∃ t, exec .exposureSet s = .next t
      ∧ (BusReachable s → t = served (exposureAnswered r (exposureTaken r.args s.lamp s.exposure) (released s)))
      ∧ (BusQuiet s → ExposureSet r (exposureTaken r.args s.lamp s.exposure) (released s) t) := by
  obtain ⟨hp, hh, hk, hw, hr, hs⟩ := h
  have hop : exposureSetOp r (released s)
      = busServe (exposureAnswered r (exposureTaken r.args s.lamp s.exposure) (released s)) := exposureSetOp_running hp hr hs hn
  generalize exposureTaken r.args s.lamp s.exposure = e at hop ⊢
  have hover : handOverKind kExposureSet exposureSetOp s = finishHand (exposureSetOp r (released s)) :=
    handOver_eq hh (beq_iff_eq.2 hk)
  have hexec : exec .exposureSet s = .next (finishHand (busServe (exposureAnswered r e (released s)))) :=
    congrArg Host.Outcome.next (hover.trans (congrArg finishHand hop))
  obtain ⟨hset, hbus, hwaits, hreach⟩ := exposureAnswered_set (r := r) (e := e) (s := released s) hp hr
  have hfinish := finishHand_served hreach (by rw [hset.list]; exact hw)
  refine ⟨_, hexec, fun hb => ?_, fun hq => ?_⟩
  · rw [busServe_served hreach.regions (by rw [BusReachable, hbus]; exact hb), hfinish]
  · have hquiet : BusQuiet (exposureAnswered r e (released s)) := by
      rw [BusQuiet, hbus]
      exact hq
    rw [busServe_quiet hquiet, hfinish]
    exact hset.served hquiet.1 hwaits

end

/-- Settles O21: the request is refused whole, or the parameters, the mode and the plan are taken, the gain is handed,
and the unit looks for work after the answer. -/
theorem exposureSetTakesParameters : Obligations.ExposureSetTakesParameters := by
  intro r s h hmode has tMin tMax
  have hparams := expParams_eq r.args s.exposure
  refine ⟨fun ht => ?_, fun ht => ?_⟩
  · have hrefused : exposureSetRefused r.args s.exposure = true := by
      rw [exposureSetRefused, hparams]
      exact Bool.or_eq_true_iff.2 (.inr (decide_eq_true ht))
    exact congrArg Host.Outcome.next (handOverKind_refused h (if_pos hrefused))
  · obtain ⟨t, hexec, hreachable, hquiet⟩ := exec_exposureSet h (exposureSet_taken hmode ht)
    have hframe : exposureTaken r.args s.lamp s.exposure = _ := exposureTaken_frame
    have hmanual := exposureTaken_manualPlan (args := r.args) (l := s.lamp) (e := s.exposure)
    have hauto := exposureTaken_autoPlan (args := r.args) (l := s.lamp) (e := s.exposure)
    rw [hparams] at hframe
    generalize exposureTaken r.args s.lamp s.exposure = e at *
    have hMin : e.tMin = tMin := congrArg Exposure.tMin hframe
    have hMax : e.tMax = tMax := congrArg Exposure.tMax hframe
    have hhanded : e.handedGain = s.exposure.handedGain := by rw [hframe]
    have hgain : e.gainInEffect = s.exposure.gainInEffect := by rw [hframe]
    simp only [hMin, hMax] at hmanual hauto
    refine ⟨t, e, hexec, hMin, hMax, congrArg Exposure.tPref hframe, congrArg Exposure.gMax hframe,
      congrArg Exposure.lMin hframe, congrArg Exposure.lMax hframe, congrArg Exposure.target hframe,
      congrArg Exposure.tolerance hframe, congrArg Exposure.damping hframe, congrArg Exposure.mode hframe, hmanual, hauto,
      ?_, hreachable, fun hq => ?_⟩
    · rw [hframe]
    · have hset := hquiet hq
      refine ⟨hset.exposure, fun hp hg => ?_, hset.holds, hset.outside, hset.list, ?_⟩
      · exact hset.update (by rw [hhanded]; exact hp) (by rw [hgain]; exact hg)
      · rw [hset.frame]
        rfl

end Sys2Proof.Proofs

namespace Sys2Proof.Proofs

open Sys2Proof.Machine Sys2Proof.Safety Sys2Proof.Laws

/-! ## The chainage range and the NOT_RUNNING reason (R107, R110, R122)

Beside the chainage unit's own operations only a change of part state touches the chainage unit, and it sets NOT_RUNNING
alone. `Tracks s t` says that an operation that starts in `s` and ends in `t` keeps both invariants; each lemma
`op_tracks` carries it over `op`, so that a composed operation is the composition of its lemmas. -/

/-- X, the base chainage and the origin value of a chainage unit lie in their range. -/
def ValuesInRange (c : Chainage) : Prop :=
  (Config.xMin ≤ c.x ∧ c.x ≤ Config.xMax) ∧ (Config.xMin ≤ c.baseX ∧ c.baseX ≤ Config.xMax)
    ∧ Config.xMin ≤ c.originValue ∧ c.originValue ≤ Config.xMax

/-- An operation keeps the chainage values in range, and NOT_RUNNING exactly outside RUNNING. -/
structure Tracks (s t : State) : Prop where
  range : ChainageInRange s → ChainageInRange t
  hold : HoldFollowsPart s → HoldFollowsPart t

variable {s t u : State}

theorem Tracks.refl (s : State) : Tracks s s := ⟨id, id⟩

/-- A change that leaves the part state and the chainage unit. -/
theorem Tracks.change (h : Tracks s t) (hu : (u.part, u.chainage) = (t.part, t.chainage)) : Tracks s u := by
  obtain ⟨hp, hc⟩ := Prod.mk.inj hu
  exact ⟨fun hs => by simpa only [ChainageInRange, hc] using h.range hs,
    fun hs => by simpa only [HoldFollowsPart, hc, hp] using h.hold hs⟩

/-- A change of the chainage unit that leaves NOT_RUNNING. -/
theorem Tracks.chainage {c : Chainage} (h : Tracks s t) (hc : ValuesInRange t.chainage → ValuesInRange c)
    (hn : c.reasons.notRunning = t.chainage.reasons.notRunning) : Tracks s { t with chainage := c } :=
  ⟨fun hs => hc (h.range hs), fun hs => hn.trans (h.hold hs)⟩

/-- NOT_RUNNING follows a change of part state. -/
theorem setPart_tracks {p : PartState} (h : Tracks s t) : Tracks s (setPart p t) :=
  ⟨h.range, fun _ => by cases p <;> rfl⟩

theorem ite_tracks {c : Prop} [Decidable c] (ht : Tracks s t) (hu : Tracks s u) : Tracks s (if c then t else u) := by
  split
  · exact ht
  · exact hu

theorem onward_tracks {k : State → State} (h : Tracks s t) (hk : Tracks s t → Tracks s (k t)) : Tracks s (onward t k) :=
  ite_tracks h (hk h)

/-! ### The shared operations -/

theorem enterFaulted_tracks (h : Tracks s t) : Tracks s (enterFaulted t) := by
  unfold enterFaulted
  split
  · exact h
  · obtain ⟨e, l, b, hb⟩ := faultBus_frame (faultBlocks t)
    rw [hb]
    exact ⟨h.range, fun _ => rfl⟩

theorem portWrite_tracks {a : Nat} {bs : List Byte} (h : Tracks s t) : Tracks s (portWrite a bs t) := by
  obtain ⟨m, hw | hw, -⟩ := portWrite_cases a bs t
  · rw [hw]; exact h.change rfl
  · rw [hw]; exact enterFaulted_tracks (h.change rfl)

theorem advanceEventCursor_tracks (h : Tracks s t) : Tracks s (advanceEventCursor t) :=
  ite_tracks (h.change rfl) (h.change rfl)

theorem writeEvent_tracks {e : Event} (h : Tracks s t) : Tracks s (writeEvent e t) := by
  unfold writeEvent
  exact onward_tracks (portWrite_tracks h) fun h => onward_tracks (portWrite_tracks h) fun h =>
    (advanceEventCursor_tracks h).change rfl

theorem emit_tracks {e : Event} (h : Tracks s t) : Tracks s (emit e t) := by
  unfold emit
  split
  · exact h
  · exact h.change rfl
  · exact h.change rfl
  all_goals
    split
    · exact enterFaulted_tracks h
    · exact ite_tracks (writeEvent_tracks h) (h.change rfl)

theorem emitAll_tracks : ∀ {es : List Event} {t : State}, Tracks s t → Tracks s (emitAll es t)
  | [], _, h => h
  | _ :: es, _, h => emitAll_tracks (es := es) (emit_tracks h)

theorem lampDo_tracks {r : Lamp × List Event} (h : Tracks s t) : Tracks s (lampDo r t) := emitAll_tracks (h.change rfl)

theorem complete_tracks {slot code w0 w1 : Nat} (h : Tracks s t) : Tracks s (complete slot code w0 w1 t) :=
  ite_tracks h <| onward_tracks (portWrite_tracks h) fun h => onward_tracks (portWrite_tracks h) fun h =>
    onward_tracks (portWrite_tracks h) fun h => h.change rfl

theorem badArgument_tracks {r : Request} (h : Tracks s t) : Tracks s (badArgument r t) := complete_tracks h

theorem enterHalted_tracks (h : Tracks s t) : Tracks s (enterHalted t) := lampDo_tracks ((setPart_tracks h).change rfl)

theorem settleHalt_tracks (h : Tracks s t) : Tracks s (settleHalt t) := ite_tracks (enterHalted_tracks h) h

/-! ### The head bus unit -/

theorem handGain_tracks (h : Tracks s t) : Tracks s (handGain t) := by
  obtain ⟨e, b, hg⟩ := handGain_frame t
  rw [hg]
  exact h.change rfl

theorem gainWriteEnd_tracks {v : Nat} {o : BusOutcome} (h : Tracks s t) : Tracks s (emitting (gainWriteEnd v o t)) := by
  obtain ⟨e, b, hg⟩ := gainWriteEnd_frame v o t
  unfold emitting
  rw [hg]
  exact emitAll_tracks (h.change rfl)

theorem pollEnd_tracks {j : Nat} {r : Bool} {o : BusOutcome} {bs : List Byte} (h : Tracks s t) :
    Tracks s (emitting (pollEnd j r o bs t)) := by
  obtain ⟨l, b, hp⟩ := pollEnd_frame j r o bs t
  unfold emitting
  rw [hp]
  exact emitAll_tracks (h.change rfl)

theorem hostTransferEnd_tracks {x : HostTransfer} {o : BusOutcome} {acked : Nat} {read : List Byte} (h : Tracks s t) :
    Tracks s (hostTransferEnd x o acked read t) :=
  have h' : Tracks s { t with bus := { t.bus with queue := t.bus.queue.tail } } := h.change rfl
  ite_tracks (onward_tracks (ite_tracks h' (portWrite_tracks h')) fun h => complete_tracks h) (complete_tracks h')

theorem txnEnd_tracks {next : BusState} {o : BusOutcome} {acked : Nat} {read : List Byte} (h : Tracks s t) :
    Tracks s (txnEnd next o acked read t) := by
  unfold txnEnd
  split
  · exact h
  · split
    · exact gainWriteEnd_tracks (h.change rfl)
    · exact pollEnd_tracks (h.change rfl)
    · exact hostTransferEnd_tracks (h.change rfl)

theorem takeIntoHand_tracks {x : Txn} (h : Tracks s t) : Tracks s (takeIntoHand x t) := h.change rfl

theorem takeHost_tracks {x : HostTransfer} (h : Tracks s t) : Tracks s (takeHost x t) := by
  unfold takeHost
  split
  · split
    · exact enterFaulted_tracks h
    · exact takeIntoHand_tracks h
  · exact takeIntoHand_tracks h

theorem takeNext_tracks (h : Tracks s t) (hu : takeNext t = some u) : Tracks s u := by
  unfold takeNext at hu
  split at hu
  · cases hu
    exact takeIntoHand_tracks (h.change rfl)
  · split at hu
    · cases hu
      exact takeIntoHand_tracks (h.change rfl)
    · split at hu
      · cases hu
      · cases hu; exact takeHost_tracks h

theorem serveBus_tracks : ∀ {fuel : Nat} {t : State}, Tracks s t → Tracks s (serveBus fuel t)
  | 0, _, h => h
  | fuel + 1, _, h => by
    unfold serveBus
    split
    · split
      · exact h
      · rename_i hu
        exact ite_tracks (serveBus_tracks (txnEnd_tracks (takeNext_tracks h hu))) (takeNext_tracks h hu)
    · exact h

theorem busServe_tracks (h : Tracks s t) : Tracks s (busServe t) := serveBus_tracks h

theorem txnEndServe_tracks {next : BusState} {o : BusOutcome} {acked : Nat} {read : List Byte} (h : Tracks s t) :
    Tracks s (txnEndServe next o acked read t) := settleHalt_tracks (busServe_tracks (txnEnd_tracks h))

theorem loseArbitration_tracks {acked : Nat} (h : Tracks s t) : Tracks s (loseArbitration acked t) :=
  ite_tracks (h.change rfl) (txnEndServe_tracks (h.change rfl))

theorem completeResets_tracks {code : Nat} : ∀ {slots : List Nat} {t : State}, Tracks s t →
    Tracks s (completeResets code slots t)
  | [], _, h => h
  | _ :: slots, _, h => completeResets_tracks (slots := slots) (complete_tracks h)

theorem endRecovery_tracks {r : Recovery} (h : Tracks s t) : Tracks s (endRecovery r t) := by
  unfold endRecovery
  refine settleHalt_tracks (busServe_tracks (completeResets_tracks ?_))
  split
  · exact h.change rfl
  · exact emit_tracks (h.change rfl)

theorem gainDropped_tracks (h : Tracks s t) : Tracks s (gainDropped t) := by
  unfold gainDropped
  split
  · exact h
  · exact h.change rfl

theorem busResetOp_tracks {slot acked : Nat} (h : Tracks s t) : Tracks s (busResetOp slot acked t) :=
  ite_tracks (h.change rfl) <| onward_tracks (ite_tracks (txnEnd_tracks h) h) fun h => (gainDropped_tracks h).change rfl

theorem abortTransfers_tracks : ∀ {xs : List HostTransfer} {t : State}, Tracks s t → Tracks s (abortTransfers xs t)
  | [], _, h => h
  | _ :: _, _, h => onward_tracks (complete_tracks h) fun h => abortTransfers_tracks h

theorem failInHand_tracks {o : BusOutcome} (h : Tracks s t) : Tracks s (failInHand o t) :=
  txnEndServe_tracks (h.change rfl)

/-! ### The overlay unit and the list engine -/

theorem finishEdit_tracks {e : Request} {rest : List Request} {buf : Option (List Byte)} (h : Tracks s t) :
    Tracks s (finishEdit e rest buf t) := complete_tracks (h.change rfl)

theorem applyEdits_tracks : ∀ {es : List Request} {t : State}, Tracks s t → Tracks s (applyEdits es t)
  | [], _, h => h
  | _ :: _, _, h => by
    unfold applyEdits
    split
    · exact onward_tracks (finishEdit_tracks h) applyEdits_tracks
    · split
      · exact enterFaulted_tracks h
      · exact onward_tracks (finishEdit_tracks h) applyEdits_tracks

theorem overlayFrame_tracks (h : Tracks s t) : Tracks s (overlayFrame t) :=
  ite_tracks (onward_tracks (applyEdits_tracks h) fun h => h.change rfl) h

theorem startFlash_tracks (h : Tracks s t) : Tracks s (startFlash t) := ite_tracks h (h.change rfl)

theorem scanEvent_tracks (h : Tracks s t) : Tracks s (scanEvent t) := ite_tracks (h.change rfl) h

theorem endScan_tracks (h : Tracks s t) : Tracks s (endScan t) := h.change rfl

theorem listFault_tracks {lap : Nat} (h : Tracks s t) : Tracks s (listFault lap t) :=
  onward_tracks (emit_tracks (h.change rfl)) fun h => h.change rfl

theorem finishHand_tracks (h : Tracks s t) : Tracks s (finishHand t) :=
  have h' := ite_tracks (c := t.list.resyncWaiting = true) (h.change (u := resyncNow t) rfl) h
  settleHalt_tracks (ite_tracks h' (endScan_tracks h'))

theorem handOver_tracks {isKind : Nat → Bool} {f : Request → State → State}
    (hf : ∀ {r : Request} {u : State}, Tracks s u → Tracks s (f r u)) (h : Tracks s t) :
    Tracks s (handOver isKind f t) := by
  unfold handOver
  split
  · exact h
  · exact ite_tracks (finishHand_tracks (hf (h.change rfl))) h

theorem advanceCursor_tracks (h : Tracks s t) : Tracks s (advanceCursor t) := ite_tracks (h.change rfl) (h.change rfl)

theorem takeSlot_tracks {r : Request} (h : Tracks s t) : Tracks s (takeSlot r t) :=
  onward_tracks (portWrite_tracks h) fun h => advanceCursor_tracks (h.change rfl)

theorem readRequest_tracks (h : Tracks s t) : Tracks s (readRequest t) := by
  simp only [readRequest]
  split
  · split
    · exact ite_tracks (takeSlot_tracks h) (endScan_tracks h)
    · exact enterFaulted_tracks h
  · exact enterFaulted_tracks h

theorem scanSlotOp_tracks (h : Tracks s t) : Tracks s (scanSlotOp t) := by
  simp only [scanSlotOp]
  split
  · exact enterFaulted_tracks h
  · exact ite_tracks (endScan_tracks h) (ite_tracks (readRequest_tracks h)
      (ite_tracks (endScan_tracks h) (listFault_tracks h)))

theorem listResyncOp_tracks (h : Tracks s t) : Tracks s (listResyncOp t) :=
  ite_tracks (ite_tracks (h.change rfl) (h.change rfl)) h

/-! ### The capture unit and the still unit -/

theorem writeFillingHeader_tracks {k : Nat} {seq : Word} (h : Tracks s t) : Tracks s (writeFillingHeader k seq t) :=
  onward_tracks (portWrite_tracks h) fun h => onward_tracks (portWrite_tracks h) fun h => portWrite_tracks h

theorem triggerStart_tracks {k : Nat} (h : Tracks s t) : Tracks s (triggerStart k t) := by
  unfold triggerStart
  split
  · exact h
  · exact onward_tracks (writeFillingHeader_tracks (h.change rfl)) fun h =>
      onward_tracks (lampDo_tracks h) fun h => h.change rfl

theorem deferFrame_tracks (h : Tracks s t) : Tracks s (deferFrame t) :=
  ite_tracks (h.change rfl) (emit_tracks (h.change rfl))

theorem captureSelect_tracks (h : Tracks s t) : Tracks s (captureSelect t) := by
  unfold captureSelect
  split
  · exact triggerStart_tracks h
  · exact deferFrame_tracks h

theorem awaitDue_tracks (h : Tracks s t) : Tracks s (awaitDue t) := by
  simp only [awaitDue]
  split
  · exact h.change rfl
  · exact ite_tracks (captureSelect_tracks (h.change rfl)) (h.change rfl)

theorem reportRelease_tracks (h : Tracks s t) : Tracks s (reportRelease t) := by
  unfold reportRelease
  split
  · split
    · exact triggerStart_tracks h
    · exact h
  · exact h

theorem planNext_tracks (h : Tracks s t) : Tracks s (planNext t) :=
  ite_tracks (awaitDue_tracks (h.change rfl)) (h.change rfl)

theorem triggerEndOp_tracks (h : Tracks s t) : Tracks s (triggerEndOp t) := by
  unfold triggerEndOp
  split
  · exact h
  · exact lampDo_tracks (h.change rfl)

theorem orderFailed_tracks {o : StillOrder} {code w0 w1 cause entry : Nat} (h : Tracks s t) :
    Tracks s (orderFailed o code w0 w1 cause entry t) := by
  unfold orderFailed
  split
  · exact complete_tracks h
  · exact emit_tracks h
  · exact emit_tracks h

theorem autoStill_tracks {o : StillOrigin} (h : Tracks s t) : Tracks s (autoStill o t) :=
  ite_tracks (ite_tracks (h.change rfl) (orderFailed_tracks h)) (orderFailed_tracks h)

theorem releaseStillPin_tracks {k : Nat} (h : Tracks s t) : Tracks s (releaseStillPin k t) :=
  reportRelease_tracks (h.change rfl)

theorem selectionFailed_tracks {o : StillOrder} {k : Nat} {seq : Word} {table : List Byte} (h : Tracks s t) :
    Tracks s (selectionFailed o k seq table t) := by
  unfold selectionFailed
  split
  · exact orderFailed_tracks (releaseStillPin_tracks h)
  · exact orderFailed_tracks (releaseStillPin_tracks h)

theorem beginCopy_tracks {o : StillOrder} {i k : Nat} {seq : Word} {table : List Byte} (h : Tracks s t) :
    Tracks s (beginCopy o i k seq table t) := by
  unfold beginCopy
  refine onward_tracks (portWrite_tracks h) fun h => onward_tracks (portWrite_tracks h) fun h => ?_
  split
  · exact enterFaulted_tracks h
  · exact onward_tracks (portWrite_tracks h) fun h => h.change rfl

theorem boostLost_tracks {seq : Word} (h : Tracks s t) : Tracks s (boostLost seq t) := by
  unfold boostLost
  split
  · exact h
  · exact ite_tracks (orderFailed_tracks (h.change rfl)) h

theorem boostDone_tracks {k : Nat} {seq : Word} (h : Tracks s t) : Tracks s (boostDone k seq t) := by
  unfold boostDone
  split
  · exact h
  · refine ite_tracks ?_ h
    have h' : Tracks s (dropHeadOrder t) := h.change rfl
    simp only []
    split
    · exact enterFaulted_tracks h'
    · split
      · exact selectionFailed_tracks h'
      · exact beginCopy_tracks h'

theorem copyLine_tracks {c : StillCopy} {l : Nat} (h : Tracks s t) : Tracks s (copyLine c l t) := by
  unfold copyLine
  split
  · exact enterFaulted_tracks h
  · exact portWrite_tracks h

theorem copyLines_tracks {c : StillCopy} : ∀ {ls : List Nat} {t : State}, Tracks s t → Tracks s (copyLines c ls t)
  | [], _, h => h
  | _ :: _, _, h => onward_tracks (copyLine_tracks h) copyLines_tracks

theorem stillTick_tracks (h : Tracks s t) : Tracks s (stillTick t) := by
  unfold stillTick
  split
  · exact h
  · exact ite_tracks (onward_tracks (copyLine_tracks h) fun h => h.change rfl) h

theorem answerCopy_tracks {c : StillCopy} (h : Tracks s t) : Tracks s (answerCopy c t) := by
  unfold answerCopy
  split
  · exact complete_tracks h
  · exact h
  · exact h

theorem finishCopy_tracks {c : StillCopy} (h : Tracks s t) : Tracks s (finishCopy c t) :=
  onward_tracks (copyLines_tracks h) fun h => onward_tracks (portWrite_tracks h) fun h =>
    onward_tracks (releaseStillPin_tracks h) fun h => onward_tracks (answerCopy_tracks (h.change rfl)) fun h =>
      settleHalt_tracks (h.change rfl)

theorem abortOrders_tracks : ∀ {os : List StillOrder} {t : State}, Tracks s t → Tracks s (abortOrders os t)
  | [], _, h => h
  | _ :: _, _, h => onward_tracks (orderFailed_tracks (h.change rfl)) abortOrders_tracks

/-! ### The end of a capture frame -/

theorem countAbandon_tracks {seq : Word} (h : Tracks s t) : Tracks s (countAbandon seq t) :=
  ite_tracks (emit_tracks (h.change rfl)) (h.change rfl)

theorem abandonFrame_tracks {f : Frame} {boost : Bool} (h : Tracks s t) : Tracks s (abandonFrame f boost t) :=
  onward_tracks (portWrite_tracks h) fun h => onward_tracks (countAbandon_tracks (h.change rfl)) fun h =>
    onward_tracks (planNext_tracks h) fun h => onward_tracks (ite_tracks (boostLost_tracks h) h) settleHalt_tracks

theorem takeLine_tracks {f : Frame} {boost : Bool} {bytes : List Byte} (h : Tracks s t) :
    Tracks s (takeLine f boost bytes t) :=
  onward_tracks (portWrite_tracks h) fun h => ite_tracks (abandonFrame_tracks h) (h.change rfl)

theorem pixelLineOp_tracks {bytes : List Byte} (h : Tracks s t) : Tracks s (pixelLineOp bytes t) := by
  unfold pixelLineOp
  split
  · exact h
  · exact ite_tracks (takeLine_tracks h) h

theorem writeCompleteHeader_tracks {f : Frame} {p : FramePlan} (h : Tracks s t) :
    Tracks s (writeCompleteHeader f p t) :=
  by
  unfold writeCompleteHeader
  exact onward_tracks (portWrite_tracks h) fun h => onward_tracks (portWrite_tracks h) fun h => portWrite_tracks h

theorem leaveLos_tracks {seq : Word} (h : Tracks s t) : Tracks s (leaveLos seq t) :=
  ite_tracks (emit_tracks (h.change rfl)) h

theorem exposureReport_tracks {r : Report} (h : Tracks s t) : Tracks s (exposureReport r t) := by
  obtain ⟨e, g, hr, -⟩ := exposureReport_frame r t
  rw [hr]
  exact h.change rfl

theorem completeFrame_tracks {f : Frame} {p : FramePlan} (h : Tracks s t) : Tracks s (completeFrame f p t) := by
  unfold completeFrame
  exact onward_tracks (writeCompleteHeader_tracks (h.change rfl)) fun h => onward_tracks (leaveLos_tracks h) fun h =>
    onward_tracks (planNext_tracks (h.change rfl)) fun h =>
      onward_tracks (busServe_tracks (exposureReport_tracks h)) fun h =>
      onward_tracks (ite_tracks (boostDone_tracks h) h) settleHalt_tracks

theorem frameCompleteOp_tracks (h : Tracks s t) : Tracks s (frameCompleteOp t) := by
  unfold frameCompleteOp
  split
  · exact ite_tracks (completeFrame_tracks h) h
  · exact h


/-! ### The chainage unit -/

theorem intoRange_bounds (x : Int) : Config.xMin ≤ intoRange x ∧ intoRange x ≤ Config.xMax := by
  unfold intoRange clampInt Config.xMin Config.xMax
  omega

/-- The candidate taken is in range (R110). -/
theorem accept_inRange {c : Chainage} {count : Word} {raw : Int} (h : ValuesInRange c) :
    ValuesInRange (c.accept count raw) := ⟨intoRange_bounds raw, h.2⟩

/-- A start takes X as the base chainage (R116). -/
theorem start_inRange {c : Chainage} (h : ValuesInRange c) : ValuesInRange c.start := ⟨h.1, h.1, h.2.2⟩

theorem runStep_inRange {n : Nat} {c : Chainage} (h : ValuesInRange c) : ValuesInRange (c.runStep n) := by
  unfold Chainage.runStep
  split
  exacts [start_inRange h, h, h]

theorem runStep_notRunning (n : Nat) (c : Chainage) : (c.runStep n).reasons = c.reasons := by
  unfold Chainage.runStep
  split <;> rfl

/-- A rebase takes X as the base chainage (R117). -/
theorem rebase_inRange {c : Chainage} (h : ValuesInRange c) : ValuesInRange c.rebase := by
  unfold Chainage.rebase
  split
  exacts [h, ⟨h.1, h.1, h.2.2⟩]

theorem rebase_reasons (c : Chainage) : c.rebase.reasons = c.reasons := by
  unfold Chainage.rebase
  split <;> rfl

theorem calibrate_inRange {args : List Byte} {c : Chainage} (h : ValuesInRange c) : ValuesInRange (c.calibrate args) :=
  by
  obtain ⟨hx, hb, ho⟩ := rebase_inRange h
  refine ⟨hx, hb, ?_⟩
  simp only [Chainage.calibrate, Chainage.arm]
  split
  exacts [intoRange_bounds _, ho]

theorem evalMarks_tracks (h : Tracks s t) : Tracks s (evalMarks t) := by
  unfold evalMarks
  split
  · exact h
  · have h' := fun (n : Option Int) (e : Event) => startFlash_tracks (emit_tracks (e := e)
      (h.chainage (c := { t.chainage with nextMark := n }) id rfl))
    exact ite_tracks (ite_tracks (autoStill_tracks (h' _ _)) (h' _ _)) h

theorem evalTarget_tracks (h : Tracks s t) : Tracks s (evalTarget t) := by
  unfold evalTarget
  split
  · exact h
  · have h' := fun e : Event => emit_tracks (e := e) (h.chainage (c := t.chainage.fire) id rfl)
    exact ite_tracks (ite_tracks (autoStill_tracks (h' _)) (h' _)) h

theorem setHeld_tracks {b : Bool} (h : Tracks s t) : Tracks s (setHeld b t) :=
  ite_tracks h (emit_tracks (h.chainage id rfl))

theorem resumed_tracks {b : Bool} {count : Word} (h : Tracks s t) : Tracks s (Machine.resumed b count t) :=
  ite_tracks (emit_tracks h) h

/-- The origin takes the base chainage as X (R109). -/
theorem establishOrigin_tracks {count : Word} (h : Tracks s t) : Tracks s (establishOrigin count t) :=
  evalTarget_tracks (resumed_tracks (h.chainage (fun hc => ⟨hc.2.1, hc.2⟩) rfl))

theorem acceptCandidate_tracks {resync : Bool} {count : Word} {raw : Int} (h : Tracks s t) :
    Tracks s (acceptCandidate resync count raw t) :=
  have h' : Tracks s { t with chainage := t.chainage.accept count raw } := h.chainage accept_inRange rfl
  evalTarget_tracks (evalMarks_tracks (resumed_tracks (ite_tracks (emit_tracks h') h')))

theorem checkCandidate_tracks {count : Word} (h : Tracks s t) : Tracks s (checkCandidate count t) :=
  ite_tracks (acceptCandidate_tracks h) (ite_tracks (h.chainage id rfl) (acceptCandidate_tracks h))

theorem reelOp_tracks {count : Word} {fault : Bool} (h : Tracks s t) : Tracks s (reelOp count fault t) := by
  unfold reelOp
  split
  · exact setHeld_tracks h
  · split
    · exact h.chainage id rfl
    · exact ite_tracks (checkCandidate_tracks h) (establishOrigin_tracks h)

theorem linkLossNotice_tracks (h : Tracks s t) : Tracks s (linkLossNotice t) := setHeld_tracks (h.chainage id rfl)

theorem surfaceOp_tracks {kind : Byte} {hold : Bool} (h : Tracks s t) : Tracks s (surfaceOp kind hold t) :=
  emit_tracks (h.chainage id rfl)

/-- A zero takes the origin value as X and as the base chainage (R115). -/
theorem chainageRunOp_tracks {r : Request} (h : Tracks s t) : Tracks s (chainageRunOp r t) := by
  unfold chainageRunOp
  have h' : Tracks s { t with chainage := t.chainage.zero } := h.chainage (fun hc => ⟨hc.2.2, hc.2.2, hc.2.2⟩) rfl
  refine ite_tracks (badArgument_tracks h) (complete_tracks (Tracks.chainage ?_ runStep_inRange ?_))
  · exact ite_tracks (evalTarget_tracks h') h
  · rw [runStep_notRunning]

theorem chainageCalibrateOp_tracks {r : Request} (h : Tracks s t) : Tracks s (chainageCalibrateOp r t) :=
  ite_tracks (badArgument_tracks h) (complete_tracks (h.chainage calibrate_inRange
    (congrArg HoldReasons.notRunning (rebase_reasons t.chainage))))

theorem markSetOp_tracks {r : Request} (h : Tracks s t) : Tracks s (markSetOp r t) :=
  ite_tracks (badArgument_tracks h) (complete_tracks (evalTarget_tracks (h.chainage id rfl)))

theorem driveHoldOp_tracks {r : Request} (h : Tracks s t) : Tracks s (driveHoldOp r t) :=
  ite_tracks (badArgument_tracks h) (complete_tracks (h.chainage id rfl))

/-! ### The link -/

theorem route_tracks {m : LinkMsg} (h : Tracks s t) : Tracks s (route m t) := by
  unfold route
  split
  · exact reelOp_tracks h
  · exact lampDo_tracks h
  · exact ite_tracks h (h.change rfl)
  · exact h
  · exact surfaceOp_tracks h
  · exact surfaceOp_tracks h
  · exact emit_tracks h

theorem linkHeard_tracks {kind : Byte} (h : Tracks s t) : Tracks s (linkHeard kind t) :=
  ite_tracks (h.change rfl) (emit_tracks (h.change rfl))

theorem receive_tracks {isIt : LinkMsg → Bool} {moment : Nat} {bytes : List Byte} (h : Tracks s t) :
    Tracks s (receive isIt moment bytes t) := by
  simp only [receive]
  split
  · exact ite_tracks (route_tracks (linkHeard_tracks (h.change rfl))) h
  · exact h

theorem linkFrame_tracks (h : Tracks s t) : Tracks s (linkFrame t) :=
  ite_tracks (h.change rfl) (ite_tracks (h.change rfl) h)

theorem transmitStart_tracks (h : Tracks s t) : Tracks s (transmitStart t) := by
  unfold transmitStart
  split
  · exact h
  · exact h.change rfl

theorem transmitEnd_tracks {m : UplinkMsg} (h : Tracks s t) : Tracks s (transmitEnd m t) := by
  unfold transmitEnd
  refine settleHalt_tracks ?_
  split
  · exact h.change rfl
  · exact complete_tracks (h.change rfl)

theorem abortUplinks_tracks : ∀ {ms : List UplinkMsg} {t : State}, Tracks s t → Tracks s (abortUplinks ms t)
  | [], _, h => h
  | _ :: _, _, h => by
    unfold abortUplinks
    split
    · exact abortUplinks_tracks h
    · exact onward_tracks (complete_tracks h) abortUplinks_tracks

/-! ### Requests -/

theorem holdStore_tracks {r : Request} {k : Nat} (h : Tracks s t) : Tracks s (holdStore r k t) := by
  unfold holdStore
  exact onward_tracks (portWrite_tracks (h.change rfl)) fun h => complete_tracks h

theorem frameHoldOp_tracks {r : Request} (h : Tracks s t) : Tracks s (frameHoldOp r t) := by
  unfold frameHoldOp
  split
  · exact complete_tracks h
  · exact ite_tracks (complete_tracks h) (ite_tracks (complete_tracks h) (holdStore_tracks h))

theorem frameReleaseOp_tracks {r : Request} (h : Tracks s t) : Tracks s (frameReleaseOp r t) := by
  unfold frameReleaseOp
  split
  · exact complete_tracks h
  · exact onward_tracks (portWrite_tracks (h.change rfl)) fun h =>
      onward_tracks (complete_tracks h) reportRelease_tracks

theorem snapshotOp_tracks {r : Request} (h : Tracks s t) : Tracks s (snapshotOp r t) :=
  ite_tracks (ite_tracks (h.change rfl) (complete_tracks h)) (complete_tracks h)

theorem busTransferOp_tracks {r : Request} (h : Tracks s t) : Tracks s (busTransferOp r t) :=
  ite_tracks (badArgument_tracks h) (ite_tracks (complete_tracks h) (busServe_tracks (h.change rfl)))

theorem uplinkSendOp_tracks {r : Request} (h : Tracks s t) : Tracks s (uplinkSendOp r t) :=
  ite_tracks (badArgument_tracks h) (ite_tracks (complete_tracks h) (h.change rfl))

theorem tellTemperature_tracks {b a : Bool} (h : Tracks s t) : Tracks s (tellTemperature b a t) :=
  ite_tracks (h.change rfl) (ite_tracks (lampDo_tracks h) h)

theorem pollSetOp_tracks {r : Request} (h : Tracks s t) : Tracks s (pollSetOp r t) :=
  ite_tracks (badArgument_tracks h) <| onward_tracks (tellTemperature_tracks (h.change rfl)) fun h => complete_tracks h

theorem latchClearOp_tracks {r : Request} (h : Tracks s t) : Tracks s (latchClearOp r t) :=
  ite_tracks (badArgument_tracks h) (complete_tracks (h.change rfl))

theorem lampSetOp_tracks {r : Request} (h : Tracks s t) : Tracks s (lampSetOp r t) :=
  ite_tracks (badArgument_tracks h) <| onward_tracks (lampDo_tracks h) fun h => complete_tracks h

theorem exposureSetOp_tracks {r : Request} (h : Tracks s t) : Tracks s (exposureSetOp r t) := by
  unfold exposureSetOp
  refine ite_tracks (badArgument_tracks h) <| onward_tracks (complete_tracks ?_) busServe_tracks
  have handed := fun e : Exposure => handGain_tracks (h.change (u := { t with exposure := e }) rfl)
  exact (handed _).change rfl

/-! ### The output frame start -/

theorem turnToFill_tracks (h : Tracks s t) : Tracks s (turnToFill t) := by
  unfold turnToFill
  split
  · exact h.change rfl
  · exact reportRelease_tracks (h.change rfl)

theorem openStall_tracks (h : Tracks s t) : Tracks s (openStall t) := by
  unfold openStall
  exact onward_tracks (emit_tracks (h.change rfl)) fun h => turnToFill_tracks (h.change rfl)

theorem underrun_tracks (h : Tracks s t) : Tracks s (underrun t) := by
  simp only [underrun]
  have h' : Tracks s { t with playout := { t.playout with
      underruns := t.playout.underruns + 1, consec := min 255 (t.playout.consec + 1) } } := h.change rfl
  refine ite_tracks (turnToFill_tracks h') (ite_tracks (openStall_tracks h') (ite_tracks (turnToFill_tracks h')
    (ite_tracks (turnToFill_tracks h') ?_)))
  split <;> exact h'.change rfl

theorem showStore_tracks {k : Nat} {pinned : State} (hp : Tracks s pinned) :
    Tracks s (showStore k pinned t) := by
  have shown : ∀ p : Playout, ∀ e : Event, Tracks s (if t.playout.stallOpen = true then
      emit e { pinned with playout := p } else { pinned with playout := p }) := fun p e =>
    ite_tracks (emit_tracks (hp.change rfl)) (hp.change rfl)
  exact ite_tracks (onward_tracks (shown _ _) reportRelease_tracks) (shown _ _)

theorem pinStore_tracks {k : Nat} (h : Tracks s t) (hu : pinStore k t = some u) : Tracks s u := by
  unfold pinStore at hu
  split at hu
  · cases hu; exact h.change rfl
  · cases hu

theorem selectShown_tracks : ∀ {fuel : Nat} {refused : List Nat} {t : State}, Tracks s t →
    Tracks s (selectShown fuel refused t)
  | 0, _, _, h => underrun_tracks h
  | fuel + 1, _, _, h => by
    unfold selectShown
    split
    · exact underrun_tracks h
    · split
      · rename_i hp; exact showStore_tracks (pinStore_tracks h hp)
      · exact selectShown_tracks h

theorem playoutFrame_tracks (h : Tracks s t) : Tracks s (playoutFrame t) := by
  unfold playoutFrame
  split
  · exact selectShown_tracks h
  · exact selectShown_tracks h
  · exact h.change rfl
  · exact h.change rfl
  · exact h
  · exact h

theorem blockFrame_tracks {b : FrameBlock} (h : Tracks s t) : Tracks s (blockFrame b t) := by
  cases b with
  | playout => exact playoutFrame_tracks h
  | lamp => exact lampDo_tracks h
  | headBus => exact busServe_tracks (h.change rfl)
  | overlay => exact overlayFrame_tracks h
  | link => exact linkFrame_tracks h

theorem runBlocks_tracks : ∀ {bs : List FrameBlock} {t : State}, Tracks s t → Tracks s (runBlocks bs t)
  | [], _, h => h
  | _ :: bs, _, h => runBlocks_tracks (bs := bs) (blockFrame_tracks h)

theorem statusFrame_tracks {before : State} (h : Tracks s t) : Tracks s (statusFrame before t) := by
  simp only [statusFrame]
  split
  · exact portWrite_tracks h
  · exact portWrite_tracks h
  · exact portWrite_tracks h
  · exact h
  · exact h
  · exact h

theorem frameStart_tracks {e : Nat} {order : List FrameBlock} (h : Tracks s t) : Tracks s (frameStart e order t) :=
  scanEvent_tracks (statusFrame_tracks (runBlocks_tracks (h.change rfl)))

/-! ### The part states -/

theorem enterLoading_tracks {origin : StartOrigin} (h : Tracks s t) : Tracks s (enterLoading origin t) :=
  lampDo_tracks ((setPart_tracks h).change rfl)

theorem startOp_tracks (h : Tracks s t) : Tracks s (startOp t) := by
  obtain hs | ⟨-, o, hs⟩ := startOp_cases t <;> rw [hs]
  exacts [h, enterLoading_tracks h]

theorem returnFromLoading_tracks {origin : StartOrigin} (h : Tracks s t) : Tracks s (returnFromLoading origin t) := by
  have h' := setPart_tracks (p := origin.part) h
  unfold returnFromLoading
  refine lampDo_tracks (Tracks.change ?_ rfl)
  cases origin with
  | off => exact h'.change rfl
  | halted => exact h'.change rfl

theorem refuseStart_tracks {origin : StartOrigin} {k : Check} (h : Tracks s t) : Tracks s (refuseStart origin k t) :=
  onward_tracks (portWrite_tracks (h.change rfl)) fun h =>
    onward_tracks (returnFromLoading_tracks h) fun h => h.change rfl

theorem takeConfig_tracks {l : Loading} {cfg : Cfg} (h : Tracks s t) : Tracks s (takeConfig l cfg t) :=
  have h' : Tracks s { t with chainage := { t.chainage with linkLossHold := cfg.linkLossHold } } := h.chainage id rfl
  h'.change rfl

theorem configurationLoadOp_tracks {l : Loading} (h : Tracks s t) : Tracks s (configurationLoadOp l t) := by
  unfold configurationLoadOp
  split
  · exact enterFaulted_tracks h
  · split
    · exact refuseStart_tracks h
    · exact takeConfig_tracks h

theorem writeLaps_tracks : ∀ {is : List Nat} {t : State}, Tracks s t → Tracks s (writeLaps is t)
  | [], _, h => h
  | _ :: _, _, h => onward_tracks (portWrite_tracks h) writeLaps_tracks

theorem writeVoids_tracks {bytes : List Byte} : ∀ {ks : List Nat} {t : State}, Tracks s t →
    Tracks s (writeVoids bytes ks t)
  | [], _, h => h
  | _ :: _, _, h => onward_tracks (portWrite_tracks h) writeVoids_tracks

theorem prepareLists_tracks (h : Tracks s t) : Tracks s (prepareLists t) := by
  unfold prepareLists
  exact onward_tracks (writeLaps_tracks h) fun h =>
    onward_tracks (portWrite_tracks (h.change rfl)) fun h => h.change rfl

theorem enterRunning_tracks (h : Tracks s t) : Tracks s (enterRunning t) := by
  have h' : Tracks s (enterRunningPlan t) := (setPart_tracks (p := .running) h).change rfl
  rw [enterRunning_eq]
  exact onward_tracks (lampDo_tracks h') fun h => onward_tracks (busServe_tracks (h.change rfl)) awaitDue_tracks

theorem regionPreparationOp_tracks {l : Loading} (h : Tracks s t) : Tracks s (regionPreparationOp l t) := by
  unfold regionPreparationOp
  exact onward_tracks (ite_tracks (prepareLists_tracks h) h) fun h =>
    onward_tracks (writeVoids_tracks (h.change rfl)) fun h =>
    onward_tracks (portWrite_tracks h) enterRunning_tracks

theorem haltOp_tracks (h : Tracks s t) : Tracks s (haltOp t) := by
  have h' := setPart_tracks (p := .halting) h
  have hq : Tracks s (haltQuiet t) := by
    rw [haltQuiet, haltCapture_eq]
    exact h'.change rfl
  unfold haltOp
  exact onward_tracks (lampDo_tracks (hq.change rfl)) fun h =>
    onward_tracks (abortTransfers_tracks (h.change rfl)) fun h =>
    onward_tracks (abortOrders_tracks h) fun h => onward_tracks (abortUplinks_tracks (h.change rfl)) settleHalt_tracks

/-- Every chainage value is 0 after power-on (R107). -/
theorem powerOnResetOp_tracks : Tracks s (powerOnResetOp t) :=
  ⟨fun _ => by change ValuesInRange {}; unfold ValuesInRange; decide, fun _ => rfl⟩

/-- A soft reset keeps the chainage values (R107). -/
theorem softResetOp_tracks (h : Tracks s t) : Tracks s (softResetOp t) := ⟨h.range, fun _ => rfl⟩

theorem writeControl_tracks {v : Word} (h : Tracks s t) : Tracks s (writeControl v t) := by
  unfold writeControl
  split
  · exact startOp_tracks h
  · exact ite_tracks (haltOp_tracks h) h
  · exact softResetOp_tracks h
  · exact listResyncOp_tracks h
  · exact h

theorem writeWorkBase_tracks {v : Word} (h : Tracks s t) : Tracks s (writeWorkBase v t) := ite_tracks (h.change rfl) h

theorem writeRegister_tracks {offset : Nat} {v : Word} (h : Tracks s t) : Tracks s (writeRegister offset v t) := by
  unfold writeRegister
  split
  · exact writeWorkBase_tracks h
  · exact writeControl_tracks h
  · exact h.change rfl
  · exact h.change rfl
  · exact h

/-! ### The commands -/

/-- A command answers a next state, and keeps both invariants. -/
def TracksTo (s : State) (o : Host.Outcome State Fault Refusal) : Prop := ∀ t, o = .next t → Tracks s t

theorem TracksTo.next (h : Tracks s t) : TracksTo s (.next t) := fun _ hu => by cases hu; exact h

/-- What a command does at a moment, where its happening can arise. -/
theorem taken_tracks {c : Prop} [Decidable c] {m : Nat} {f : State → State}
    (hf : ∀ {u : State}, Tracks s u → Tracks s (f u)) : TracksTo s (.next (if c then f (advance m s) else s)) :=
  .next (ite_tracks (hf ((Tracks.refl s).change rfl)) (.refl s))

theorem configurationLoad_tracks {m : Nat} : TracksTo s (execConfigurationLoad m s) := by
  unfold execConfigurationLoad
  split
  · exact .next (Tracks.refl s)
  · exact .next (ite_tracks (.refl s) (configurationLoadOp_tracks ((Tracks.refl s).change rfl)))

theorem regionPreparation_tracks {m : Nat} : TracksTo s (execRegionPreparation m s) := by
  unfold execRegionPreparation
  split
  · exact .next (Tracks.refl s)
  · exact taken_tracks regionPreparationOp_tracks

theorem outputFrameStart_tracks {order : List FrameBlock} : TracksTo s (execOutputFrameStart order s) := by
  unfold execOutputFrameStart
  split
  · exact .next (Tracks.refl s)
  · exact .next (frameStart_tracks (.refl s))

theorem listPollTimerExpiry_tracks : TracksTo s (execListPollTimerExpiry s) := by
  unfold execListPollTimerExpiry
  split
  · exact .next (Tracks.refl s)
  · exact .next (scanEvent_tracks ((Tracks.refl s).change rfl))

theorem captureDue_tracks : TracksTo s (execCaptureDue s) := by
  unfold execCaptureDue
  split
  · exact .next (Tracks.refl s)
  · exact taken_tracks captureSelect_tracks

theorem triggerEnd_tracks : TracksTo s (execTriggerEnd s) := by
  unfold execTriggerEnd
  split
  · exact .next (Tracks.refl s)
  · exact taken_tracks triggerEndOp_tracks

theorem frameValidRise_tracks : TracksTo s (execFrameValidRise s) := by
  unfold execFrameValidRise
  split
  · exact .next (Tracks.refl s)
  · exact .next ((Tracks.refl s).change rfl)

theorem frameValidFall_tracks {m : Nat} : TracksTo s (execFrameValidFall m s) := by
  have h : Tracks s (advance m s) := (Tracks.refl s).change rfl
  simp only [execFrameValidFall]
  split
  · exact .next h
  · exact .next (ite_tracks (abandonFrame_tracks h) h)

theorem captureDeadlineExpiry_tracks : TracksTo s (execCaptureDeadlineExpiry s) := by
  unfold execCaptureDeadlineExpiry
  split
  · exact taken_tracks abandonFrame_tracks
  · exact .next (Tracks.refl s)

theorem sensorLos_tracks {m : Nat} : TracksTo s (execSensorLos m s) := by
  have h : Tracks s (advance m s) := (Tracks.refl s).change rfl
  simp only [execSensorLos]
  split
  · exact .next h
  · exact .next (ite_tracks (abandonFrame_tracks h) h)

theorem messageDiscarded_tracks {bytes : List Byte} : TracksTo s (execMessageDiscarded bytes s) := by
  simp only [execMessageDiscarded]
  split
  · exact .next (ite_tracks ((Tracks.refl s).change rfl) (.refl s))
  · exact .next (Tracks.refl s)

theorem linkLost_tracks : TracksTo s (execLinkLost s) := by
  unfold execLinkLost
  split
  · exact .next (Tracks.refl s)
  · exact .next (ite_tracks (linkLossNotice_tracks (emit_tracks ((Tracks.refl s).change rfl))) (.refl s))

theorem uplinkSendEnd_tracks : TracksTo s (execUplinkSendEnd s) := by
  unfold execUplinkSendEnd
  split
  · exact .next (Tracks.refl s)
  · exact .next (transmitEnd_tracks (.refl s))

theorem busBusyTimeout_tracks {stop : Bool} : TracksTo s (execBusBusyTimeout s stop) := by
  unfold execBusBusyTimeout
  split
  · exact .next (Tracks.refl s)
  · exact .next (ite_tracks (txnEndServe_tracks ((Tracks.refl s).change rfl)) (.refl s))

theorem busTransactionEnd_tracks {m acked : Nat} {o : BusEnd} {read : List Byte} :
    TracksTo s (execBusTransactionEnd m o acked read s) := by
  unfold execBusTransactionEnd
  split
  · exact .next (Tracks.refl s)
  · exact taken_tracks txnEndServe_tracks

theorem pollFailing_tracks {m : Nat} {o : BusOutcome} : TracksTo s (execPollFailing m o s) := by
  unfold execPollFailing
  split
  · exact .next (Tracks.refl s)
  · split
    exacts [taken_tracks failInHand_tracks, .next (.refl s), .next (.refl s)]

theorem gainWriteFailed_tracks {m : Nat} {o : BusOutcome} : TracksTo s (execGainWriteFailed m o s) := by
  unfold execGainWriteFailed
  split
  · exact .next (Tracks.refl s)
  · split
    exacts [taken_tracks failInHand_tracks, .next (.refl s), .next (.refl s)]

theorem recoveryEnd_tracks {m : Nat} {reads : List Bool} {clk dat : Bool} :
    TracksTo s (execRecoveryEnd m reads clk dat s) := by
  unfold execRecoveryEnd
  split
  · exact .next (Tracks.refl s)
  · exact taken_tracks endRecovery_tracks

theorem stillCopyEnd_tracks {m : Nat} : TracksTo s (execStillCopyEnd m s) := by
  unfold execStillCopyEnd
  split
  · exact .next (Tracks.refl s)
  · exact .next (finishCopy_tracks ((Tracks.refl s).change rfl))

/-- A request handed over, whose operation keeps both invariants. -/
theorem handOverKind_tracks {kind : Nat} {f : Request → State → State}
    (hf : ∀ {r : Request} {u : State}, Tracks s u → Tracks s (f r u)) : TracksTo s (.next (handOverKind kind f s)) :=
  .next (handOver_tracks hf (.refl s))

/-- Every command keeps the chainage values in range and NOT_RUNNING exactly outside RUNNING. -/
theorem exec_tracks (c : Instr) (s : State) : TracksTo s (exec c s) := by
  have same := Tracks.refl s
  cases c with
  | start => exact .next (startOp_tracks same)
  | halt => exact .next (ite_tracks (haltOp_tracks same) same)
  | softReset => exact .next (softResetOp_tracks same)
  | listResync => exact .next (listResyncOp_tracks same)
  | workBaseWrite => exact .next (writeWorkBase_tracks same)
  | attentionWrite | attentionMaskWrite | busForeignStart | busForeignStop => exact .next (same.change rfl)
  | registerWrite => exact .next (writeRegister_tracks same)
  | powerOnReset => exact .next powerOnResetOp_tracks
  | configurationLoad => exact configurationLoad_tracks
  | regionPreparation => exact regionPreparation_tracks
  | memoryError => exact .next (ite_tracks same (enterFaulted_tracks (same.change rfl)))
  | outputFrameStart => exact outputFrameStart_tracks
  | listPollTimerExpiry => exact listPollTimerExpiry_tracks
  | scanSlot => exact taken_tracks scanSlotOp_tracks
  | badKind => exact .next (handOver_tracks complete_tracks same)
  | lampSet => exact handOverKind_tracks lampSetOp_tracks
  | exposureSet => exact handOverKind_tracks exposureSetOp_tracks
  | chainageRun => exact handOverKind_tracks chainageRunOp_tracks
  | chainageCalibrate => exact handOverKind_tracks chainageCalibrateOp_tracks
  | markSet => exact handOverKind_tracks markSetOp_tracks
  | driveHold => exact handOverKind_tracks driveHoldOp_tracks
  | frameHold => exact handOverKind_tracks frameHoldOp_tracks
  | frameRelease => exact handOverKind_tracks frameReleaseOp_tracks
  | snapshot => exact handOverKind_tracks snapshotOp_tracks
  | overlayWrite | overlayStyle | fontLoad => exact handOverKind_tracks fun h => h.change rfl
  | busTransfer => exact handOverKind_tracks busTransferOp_tracks
  | pollSet => exact handOverKind_tracks pollSetOp_tracks
  | busReset => exact handOverKind_tracks busResetOp_tracks
  | uplinkSend => exact handOverKind_tracks uplinkSendOp_tracks
  | latchClear => exact handOverKind_tracks latchClearOp_tracks
  | captureStall => exact .next (ite_tracks (underrun_tracks same) same)
  | captureDue => exact captureDue_tracks
  | triggerEnd => exact triggerEnd_tracks
  | frameValidRise => exact frameValidRise_tracks
  | pixelLine => exact .next (pixelLineOp_tracks (same.change rfl))
  | frameValidFall => exact frameValidFall_tracks
  | frameComplete => exact .next (frameCompleteOp_tracks (same.change rfl))
  | captureDeadlineExpiry => exact captureDeadlineExpiry_tracks
  | sensorLos => exact sensorLos_tracks
  | tempStale => exact .next (ite_tracks (lampDo_tracks same) same)
  | gainWriteFailed => exact gainWriteFailed_tracks
  | reel | chainageResync | powerGrant | operatorText | keepalive | surfaceMessage | haltDrive | releaseDrive =>
    exact .next (receive_tracks same)
  | messageDropped => exact .next (ite_tracks (same.change rfl) same)
  | messageDiscarded => exact messageDiscarded_tracks
  | rxGapTimeout => exact .next (ite_tracks (same.change rfl) same)
  | linkLost => exact linkLost_tracks
  | headStatus => exact .next (ite_tracks (same.change rfl) same)
  | uplinkTransmitStart => exact .next (ite_tracks (transmitStart_tracks same) same)
  | uplinkSendEnd => exact uplinkSendEnd_tracks
  | busBusyTimeout => exact busBusyTimeout_tracks
  | arbitrationLost => exact taken_tracks loseArbitration_tracks
  | busStuck => exact taken_tracks txnEndServe_tracks
  | busTransactionEnd => exact busTransactionEnd_tracks
  | pollFailing => exact pollFailing_tracks
  | pollDue => exact .next (ite_tracks (busServe_tracks (same.change rfl)) same)
  | recoveryEnd => exact recoveryEnd_tracks
  | stillCopyEnd => exact stillCopyEnd_tracks
  | startByte => exact .next (ite_tracks (same.change rfl) same)

/-- Settles O57: an empty queue moves the still copy alone, and every command keeps both invariants. -/
theorem stepKeepsChainageAndHold : Obligations.StepKeepsChainageAndHold := by
  intro s t h
  unfold step at h
  split at h
  · cases h
    have ht := stillTick_tracks (.refl s)
    exact ⟨ht.range, ht.hold⟩
  · have ht := exec_tracks _ _ t h
    exact ⟨ht.range, ht.hold⟩

end Sys2Proof.Proofs

namespace Sys2Proof.Proofs

open Sys2Proof.Machine Sys2Proof.Safety Sys2Proof.Laws

/-! ## The arithmetic of the chainage unit (R110, R118) -/

/-- Rounding is symmetric about zero: a half goes away from it on both sides. -/
theorem roundQ16_neg (q : Int) : roundQ16 (-q) = -roundQ16 q := by
  unfold roundQ16
  split <;> split <;> omega

/-- From zero up, a quotient is rounded to the nearest, a half upwards. -/
theorem roundQ16_of_nonneg {q : Int} (h : 0 ≤ q) :
    0 ≤ roundQ16 q ∧ -32768 < 65536 * roundQ16 q - q ∧ 65536 * roundQ16 q - q ≤ 32768 := by
  unfold roundQ16
  rw [if_neg (Int.not_lt.2 h)]
  omega

theorem roundQ16_nearest (q : Int) : 2 * |65536 * roundQ16 q - q| ≤ 65536
    ∧ (2 * |65536 * roundQ16 q - q| = 65536 → |q| < 65536 * |roundQ16 q|) := by
  wlog h : 0 ≤ q generalizing q
  · have hneg := this (-q) (by omega)
    have habs : |65536 * roundQ16 (-q) - -q| = |65536 * roundQ16 q - q| := by
      rw [roundQ16_neg, ← abs_neg]
      congr 1
      omega
    rwa [habs, roundQ16_neg, abs_neg, abs_neg] at hneg
  · obtain ⟨hpos, hlo, hhi⟩ := roundQ16_of_nonneg h
    have hle : |65536 * roundQ16 q - q| ≤ 32768 := abs_le.2 ⟨by omega, hhi⟩
    refine ⟨by linarith, fun htie => ?_⟩
    rw [abs_of_nonneg h, abs_of_nonneg hpos]
    obtain ⟨heq, -⟩ | ⟨heq, -⟩ := abs_cases (65536 * roundQ16 q - q)
    · linarith
    · linarith

/-- Settles O43. -/
theorem candidateRoundsHalfAway : Obligations.CandidateRoundsHalfAway := by
  intro c count q
  obtain ⟨hnear, htie⟩ := roundQ16_nearest q
  refine ⟨roundQ16 q, ?_, hnear, htie, rfl⟩
  simp only [rawCandidate]
  split
  · rfl
  · exact Int.sub_eq_add_neg

/-- The multiple of `i` one beyond the quotient of `x` is the smallest greater than `x`. -/
theorem fdiv_succ_least {x : Int} {i : Nat} (h : i ≠ 0) :
    x < (Int.fdiv x i + 1) * i ∧ ∀ k : Int, x < k * i → Int.fdiv x i + 1 ≤ k := by
  have hi : (0 : Int) < i := by omega
  rw [Int.fdiv_eq_ediv_of_nonneg x hi.le]
  exact ⟨Int.lt_ediv_add_one_mul_self x hi, fun k hk => (Int.ediv_lt_iff_lt_mul hi).2 hk⟩

/-- Settles O24: downwards is upwards from −X. -/
theorem armingSetsNextMultiple : Obligations.ArmingSetsNextMultiple := by
  intro c
  refine ⟨fun h => if_pos h, fun h => ?_⟩
  cases htravel : c.travel with
  | increasing =>
    refine ⟨_, by rw [armedMark, if_neg h, htravel], fun _ => fdiv_succ_least h, nofun⟩
  | decreasing =>
    obtain ⟨hgt, hleast⟩ := fdiv_succ_least (x := -c.x) h
    refine ⟨_, by rw [armedMark, if_neg h, htravel], nofun, fun _ => ⟨?_, fun k hk => ?_⟩⟩
    · rw [show -Int.fdiv (-c.x) c.markInterval - 1 = -(Int.fdiv (-c.x) c.markInterval + 1) by ring, Int.neg_mul]
      omega
    · have := hleast (-k) (by rw [Int.neg_mul]; omega)
      omega

end Sys2Proof.Proofs

namespace Sys2Proof.Proofs

open Sys2Proof.Machine Sys2Proof.Safety Sys2Proof.Laws

/-! ## Requests that change the chainage unit and are answered at once (R117, R124) -/

/-- A request whose operation sets the chainage unit and answers. -/
theorem handOverKind_chainage {k code w0 w1 : Nat} {r : Request} {s : State} {c : Chainage}
    {f : Request → State → State} (h : InHand k r s)
    (hf : f r (released s) = complete r.slot code w0 w1 { released s with chainage := c }) :
    handOverKind k f s = answered r.slot code w0 w1 { released s with chainage := c } := by
  refine handOverKind_running h (hf.trans ?_)
  obtain ⟨hp, -, -, -, hr, hs⟩ := h
  exact complete_working (.inl hp) hr.2.1 hs

theorem holdOut_iff (s : State) : holdOut s = true ↔ s.chainage.reasons.notRunning = true
    ∨ s.chainage.reasons.stopTarget = true ∨ s.chainage.reasons.linkLost = true ∨ s.chainage.reasons.surface = true
    ∨ s.chainage.reasons.host = true := by
  simp only [holdOut, HoldReasons.any, Bool.or_eq_true, or_assoc]

/-- A LINK_LOST clear takes the reason away unless the link is LOST. -/
theorem linkLost_cleared (lost clear : Bool) (l : LinkState) :
    (lost && !(clear && l != .lost)) = if clear = true ∧ l ≠ .lost then false else lost := by
  cases clear <;> cases l <;> cases lost <;> rfl

/-- Settles O26. -/
theorem driveHoldSetsAndClears : Obligations.DriveHoldSetsAndClears := by
  refine ⟨holdOut_iff, fun r s h => ?_⟩
  intro reasons clearStop clearLink host stop link bit word
  refine ⟨fun hbad => congrArg Host.Outcome.next (handOverKind_refused h (if_pos hbad)), fun hok => ?_⟩
  refine congrArg Host.Outcome.next (handOverKind_chainage h ?_)
  have hreasons : reasons.driveHold r.args s.link.state =
      { reasons with host := host, stopTarget := stop, linkLost := link } := by
    simp only [HoldReasons.driveHold, linkLost_cleared]
    rfl
  have hword : (reasons.driveHold r.args s.link.state).code = word := by
    rw [hreasons]
    simp only [HoldReasons.code, word, bit, mul_ite, mul_one, mul_zero]
  rw [← hword, ← hreasons]
  exact if_neg (Nat.not_lt.2 hok)

/-- The low bits of an argument byte are zero when none of them is set. -/
theorem u8_mod_two_pow {bs : List Byte} {i n : Nat} : u8 bs i % 2 ^ n = 0 ↔ ∀ k < n, bitAt bs i k = false := by
  constructor
  · intro h k hk
    have hbit := Nat.testBit_mod_two_pow (u8 bs i) n k
    rw [h, Nat.zero_testBit, decide_eq_true hk, Bool.true_and] at hbit
    exact hbit.symm
  · intro h
    refine Nat.eq_of_testBit_eq fun k => ?_
    rw [Nat.testBit_mod_two_pow, Nat.zero_testBit]
    by_cases hk : k < n
    · rw [show (u8 bs i).testBit k = false from h k hk, Bool.and_false]
    · rw [decide_eq_false hk, Bool.false_and]

theorem calibrateRefused_iff (args : List Byte) : calibrateRefused args = true ↔
    (bitAt args 0 0 || bitAt args 0 1 || bitAt args 0 2 || bitAt args 0 3) = false
      ∨ (bitAt args 0 1 = true ∧ s8 args 1 ≠ 1 ∧ s8 args 1 ≠ -1) := by
  have hnone : u8 args 0 % 16 = 0 ↔ _ := u8_mod_two_pow (n := 4)
  simp only [calibrateRefused, Bool.or_eq_true, Bool.and_eq_true, beq_iff_eq, bne_iff_ne, and_assoc, hnone,
    Bool.or_eq_false_iff, Nat.forall_lt_succ_right, Nat.not_lt_zero, false_imp_iff, implies_true, true_and]

theorem calibrateClamped_iff (args : List Byte) : calibrateClamped args = true ↔
    (bitAt args 0 0 = true ∧ clampNat 1 16777215 (u32 args 4) ≠ u32 args 4)
      ∨ (bitAt args 0 3 = true ∧ clampNat 1 65535 (u32 args 12) ≠ u32 args 12)
      ∨ (bitAt args 0 2 = true ∧ intoRange (s32 args 8) ≠ s32 args 8) := by
  simp only [calibrateClamped, Bool.or_eq_true, Bool.and_eq_true, bne_iff_ne, or_assoc, or_comm, or_left_comm]

/-- A condition on a value taken when a flag is set reads the value itself. -/
theorem and_ite_iff {α : Type} {b : Bool} {x y z : α} :
    (b = true ∧ (if b = true then x else y) ≠ z) ↔ b = true ∧ x ≠ z :=
  and_congr_right fun h => by rw [if_pos h]

/-- The rebase of a running unit, field by field (R117). -/
theorem rebase_eq (c : Chainage) : c.rebase = { c with
    baseX := if c.run = .running then c.x else c.baseX
    originCount := if c.run = .running ∧ c.originValid = true then c.lastCount else c.originCount } := by
  cases h : c.run with
  | stopped =>
    simp only [Chainage.rebase, h, reduceCtorEq, false_and, if_false]
    rw [← h]
  | running =>
    simp only [Chainage.rebase, h, true_and, if_true]

/-- Settles O23. -/
theorem calibrateRebasesAndArms : Obligations.CalibrateRebasesAndArms := by
  intro r s h c has d a0 refused scale limit origin moved
  have hrefused : calibrateRefused r.args = true ↔ refused := calibrateRefused_iff r.args
  have hmoved : calibrateClamped r.args = true ↔ moved := by
    simp only [moved, scale, limit, origin, and_ite_iff, has]
    exact calibrateClamped_iff r.args
  refine ⟨fun hbad => congrArg Host.Outcome.next (handOverKind_refused h (if_pos (hrefused.2 hbad))), fun hok => ?_⟩
  refine congrArg Host.Outcome.next (handOverKind_chainage h ?_)
  have hset : c.calibrate r.args = { c with
      scale := scale, stepLimit := limit, originValue := origin
      forward := if has 1 then decide (d = 1) else c.forward
      baseX := if c.run = .running then c.x else c.baseX
      originCount := if c.run = .running ∧ c.originValid = true then c.lastCount else c.originCount
      nextMark := armedMark c } := by
    rw [Chainage.calibrate, rebase_eq]
    rfl
  have hcode : (if calibrateClamped r.args then rcClamped else rcOk) = if moved then 1 else 0 := if_congr hmoved rfl rfl
  rw [chainageCalibrateOp, if_neg fun hbad => hok (hrefused.1 hbad)]
  simp only [hcode]
  rw [show (released s).chainage.calibrate r.args = _ from hset]

end Sys2Proof.Proofs

namespace Sys2Proof.Proofs

open Sys2Proof.Machine Sys2Proof.Safety Sys2Proof.Laws

/-! ## Operations that only report, in FAULTED too

A message of the tether link reaches the chainage unit in FAULTED as well, and there its events are not written (R10).
`Apt w v` covers both: the part works with its regions in reach, or it is in FAULTED; in either case an event moves past
a change of the rest of the state. -/

/-- The regions of `w` can be reached and `v` gives an event what `w` gives it, or both are in FAULTED. -/
def Apt (w v : State) : Prop := Ready w v ∨ w.part = .faulted ∧ v.part = .faulted

section

variable {w v : State}

theorem apt_self {s : State} (h : ErrorFree s) : Apt s s :=
  h.imp (fun ⟨hw, hr⟩ => ready_self hr hw) fun hp => ⟨hp, hp⟩

theorem emit_faulted {e : Event} {s : State} (hp : s.part = .faulted) : emit e s = s := events_faulted hp [e]

theorem act_part_faulted {a : Act} {s : State} (hp : s.part = .faulted) : (act s a).part = .faulted := by
  cases a with
  | event e => rw [act, emit_faulted hp, hp]
  | answer | store | attention => exact hp

theorem acts_part_faulted : ∀ {as : List Act} {s : State}, s.part = .faulted → (as.foldl act s).part = .faulted
  | [], _, hp => hp
  | _ :: as, _, hp => acts_part_faulted (as := as) (act_part_faulted hp)

theorem Apt.acts (h : Apt w v) (as : List Act) : Apt (as.foldl act w) v :=
  h.imp (·.acts as) fun ⟨hw, hv⟩ => ⟨acts_part_faulted hw, hv⟩

/-- The rest may change in every way an event does not see. -/
theorem Apt.change {u : State} (h : Apt w v) (he : u.errors = v.errors := by rfl)
    (ha : u.areaBase = v.areaBase := by rfl) (hc : u.cfg = v.cfg := by rfl)
    (hf : u.playout.frames = v.playout.frames := by rfl) (hx : u.chainage.x = v.chainage.x := by rfl)
    (hp : u.part = v.part := by rfl) : Apt w u :=
  h.imp (·.change he ha hc hf hx hp) fun ⟨hw, hv⟩ => ⟨hw, hp.trans hv⟩

/-- X may change where an event reads it too. -/
theorem Apt.chainage {c d : Chainage} (h : Apt w v) (hx : d.x = c.x := by rfl) :
    Apt { w with chainage := c } { v with chainage := d } :=
  h.imp (fun ⟨hr, hw, ha⟩ => ⟨hr, hw, ⟨ha.errors, ha.areaBase, ha.cfg, ha.frames, hx, ha.working⟩⟩) id

theorem emit_apt (h : Apt w v) (e : Event) : emit e (put w v) = put (act w (.event e)) v := by
  obtain h | ⟨hw, hv⟩ := h
  · exact emit_ready h e
  · rw [emit_faulted (s := put w v) hv, act, emit_faulted hw]

/-! ### What such acts leave -/

/-- The act is an event. -/
def IsEvent (a : Act) : Prop := ∃ e, a = .event e

/-- Acts that are events are `events` of them. -/
theorem exists_events : ∀ {as : List Act}, (∀ a ∈ as, IsEvent a) → ∃ es, as = events es
  | [], _ => ⟨[], rfl⟩
  | a :: as, h => by
    obtain ⟨e, rfl⟩ := h a List.mem_cons_self
    obtain ⟨es, rfl⟩ := exists_events (as := as) fun a ha => h a (List.mem_cons_of_mem _ ha)
    exact ⟨e :: es, rfl⟩

end

/-! ## Still orders of the chainage unit (R160) -/

theorem orderWrites_event {o : StillOrigin} {s : State} : ∀ a ∈ orderWrites o s, IsEvent a := by
  intro a ha
  unfold orderWrites at ha
  split at ha
  · split at ha
    · exact absurd ha List.not_mem_nil
    · exact ⟨_, List.mem_singleton.1 ha⟩
  · exact ⟨_, List.mem_singleton.1 ha⟩

/-- A MARK or STOP order reaches the still unit, joins its queue or is reported lost. -/
theorem autoStill_apt {w v : State} (h : Apt w v) {o : StillOrigin} (ho : o.slot? = none) :
    autoStill o (put w v) = put ((orderWrites o v).foldl act w) { v with still := orderedStill o v } := by
  have hlost (cause : Nat) : orderFailed { origin := o } rcAborted 0 0 cause 0xFF (put w v)
      = put (act w (.event (Event.stillMissed cause o.code 0xFF 0))) v := by
    cases o with
    | snapshot => cases ho
    | mark | stop => exact emit_apt h _
  unfold autoStill
  by_cases hp : v.part = .running
  · rw [if_pos (show (put w v).part = _ from hp)]
    by_cases hroom : v.still.orders.length < 2
    · have hstill : orderedStill o v = _ := if_pos ⟨hp, hroom⟩
      rw [orderWrites, if_pos hp, if_pos hroom, hstill]
      exact if_pos (decide_eq_true hroom)
    · have hstill : orderedStill o v = v.still := if_neg fun hc => hroom hc.2
      rw [orderWrites, if_pos hp, if_neg hroom, hstill]
      exact (if_neg fun hr => hroom (of_decide_eq_true hr)).trans (hlost 0)
  · have hstill : orderedStill o v = v.still := if_neg fun hc => hp hc.1
    rw [if_neg (show ¬ (put w v).part = _ from hp), orderWrites, if_neg hp, hstill]
    exact hlost 1

/-! ## The stop target (R121) -/

/-- The stop target that an evaluation makes fire. -/
def firedTarget (c : Chainage) : Option Int := if c.fired then none else c.stopTarget.filter (targetReached c)

/-- A chainage unit after its stop target has been evaluated. -/
def targetFlags (c : Chainage) : Chainage :=
  { c with
    fired := c.fired || (firedTarget c).isSome
    reasons := { c.reasons with stopTarget := c.reasons.stopTarget || (firedTarget c).isSome } }

/-- What the evaluation writes. -/
def targetActs (s : State) : List Act :=
  match firedTarget s.chainage with
  | none => []
  | some y => .event (Event.stopReached y s.chainage.x) :: if s.chainage.autoStop then orderWrites .stop s else []

/-- The still unit after it. -/
def targetStill (s : State) : Still :=
  if (firedTarget s.chainage).isSome && s.chainage.autoStop then orderedStill .stop s else s.still

theorem targetActs_event {s : State} : ∀ a ∈ targetActs s, IsEvent a := by
  intro a ha
  unfold targetActs at ha
  split at ha
  · exact absurd ha List.not_mem_nil
  · obtain rfl | ha := List.mem_cons.1 ha
    · exact ⟨_, rfl⟩
    · split at ha
      · exact orderWrites_event a ha
      · exact absurd ha List.not_mem_nil

theorem targetReached_iff {c : Chainage} {y : Int} :
    targetReached c y = true ↔ (c.travel = .increasing → y ≤ c.x) ∧ (c.travel = .decreasing → c.x ≤ y) := by
  unfold targetReached
  cases c.travel <;> simp

theorem firedTarget_eq_some {c : Chainage} {y : Int} :
    firedTarget c = some y ↔ c.fired = false ∧ c.stopTarget = some y ∧ targetReached c y = true := by
  unfold firedTarget
  cases c.fired <;> simp [Option.filter_eq_some_iff]

theorem firedTarget_isSome {c : Chainage} : (firedTarget c).isSome = true ↔ c.fired = false ∧ ∃ y ∈ c.stopTarget,
    (c.travel = .increasing → y ≤ c.x) ∧ (c.travel = .decreasing → c.x ≤ y) := by
  simp only [Option.isSome_iff_exists, firedTarget_eq_some, targetReached_iff, Option.mem_def, exists_and_left]

theorem targetFlags_of_none {c : Chainage} (h : firedTarget c = none) : targetFlags c = c := by
  simp only [targetFlags, h, Option.isSome_none, Bool.or_false]

theorem evalTarget_of_none {s : State} (h : firedTarget s.chainage = none) : evalTarget s = s := by
  unfold evalTarget
  split
  · rfl
  · rename_i y hy
    refine if_neg fun ⟨hf, hr⟩ => ?_
    rw [firedTarget_eq_some.2 ⟨hf, hy, hr⟩] at h
    cases h

theorem evalTarget_of_some {s : State} {y : Int} (h : firedTarget s.chainage = some y) : evalTarget s =
    let t := emit (Event.stopReached y s.chainage.x) { s with chainage := s.chainage.fire }
    if t.chainage.autoStop then autoStill .stop t else t := by
  obtain ⟨hf, hy, hr⟩ := firedTarget_eq_some.1 h
  unfold evalTarget
  rw [hy]
  exact if_pos ⟨hf, hr⟩

theorem targetFlags_of_some {c : Chainage} {y : Int} (h : firedTarget c = some y) : targetFlags c = c.fire := by
  simp only [targetFlags, h, Option.isSome_some, Bool.or_true, Chainage.fire]

/-- An evaluation of the stop target writes `targetActs`, sets `targetFlags` and orders `targetStill`. -/
theorem evalTarget_apt {w v : State} (h : Apt w v) : evalTarget (put w v) =
    put ((targetActs v).foldl act w) { v with chainage := targetFlags v.chainage, still := targetStill v } := by
  cases hy : firedTarget v.chainage with
  | none =>
    rw [evalTarget_of_none (s := put w v) hy, targetFlags_of_none hy]
    simp only [targetActs, targetStill, hy]
    rfl
  | some y =>
    have hfire : Apt w { v with chainage := v.chainage.fire } := h.change
    have hreport := emit_apt hfire (Event.stopReached y v.chainage.x)
    rw [evalTarget_of_some (s := put w v) hy, targetFlags_of_some hy]
    simp only [targetActs, targetStill, hy]
    have hfired : ({ put w v with chainage := (put w v).chainage.fire } : State)
        = put w { v with chainage := v.chainage.fire } := rfl
    rw [hfired, show (put w v).chainage.x = v.chainage.x from rfl, hreport]
    cases hstop : v.chainage.autoStop with
    | false => exact if_neg (by rw [put]; simp [Chainage.fire, hstop])
    | true =>
      refine (if_pos (by rw [put]; simp [Chainage.fire, hstop])).trans ?_
      exact autoStill_apt (hfire.acts [.event (Event.stopReached y v.chainage.x)]) rfl

end Sys2Proof.Proofs

namespace Sys2Proof.Proofs

open Sys2Proof.Machine Sys2Proof.Safety Sys2Proof.Laws

/-! ## Requests that report before they are answered (R114, R120) -/

/-- An event among acts is reported. -/
theorem acts_reported {e : Event} (hk : e.kind < 24) : ∀ {as : List Act} {w : State}, RegionsOk w → Working w →
    Act.event e ∈ as → Reported e.kind (as.foldl act w)
  | [], _, _, _, he => absurd he List.not_mem_nil
  | a :: as, w, hr, hw, he => by
    have ha := acted_act (a := a) hr hw
    rw [List.foldl_cons]
    obtain rfl | he := List.mem_cons.1 he
    · exact (emit_reported hr hw hk).imp (acts_attention (as := as) (ha.regionsOk hr) (ha.working hw))
        (acts_missed (as := as) (ha.regionsOk hr) (ha.working hw))
    · exact acts_reported hk (as := as) (ha.regionsOk hr) (ha.working hw) he

/-- What a request's operation leaves that reports by `as`, changes the blocks as in `v`, and answers last. -/
def reportedThen (as : List Act) (answer : Act) (c : Chainage) (s v : State) : State :=
  put ((as ++ [answer]).foldl act { released s with chainage := c }) v

/-- A request whose operation reports and is answered last. -/
theorem handOverKind_reports {k code w0 w1 : Nat} {r : Request} {s v : State} {c : Chainage} {as : List Act}
    {f : Request → State → State} (h : InHand k r s) (hv : Ready { released s with chainage := c } v)
    (hp : v.part = .running) (hf : f r (released s)
      = complete r.slot code w0 w1 (put (as.foldl act { released s with chainage := c }) v)) :
    handOverKind k f s = reportedThen as (.answer r.slot code w0 w1) c s v := by
  obtain ⟨-, hh, hkind, hsync, -, hslot⟩ := h
  have hacted := acted_acts (as := as ++ [.answer r.slot code w0 w1]) hv.regions hv.working
  have hop : f r (released s) = reportedThen as (.answer r.slot code w0 w1) c s v := by
    rw [hf, complete_ready (hv.acts as) hslot, reportedThen, List.foldl_append]
    rfl
  have hlist : (reportedThen as (.answer r.slot code w0 w1) c s v).list.resyncWaiting = false := by
    rw [reportedThen, put_list, hacted.list_eq]
    exact hsync
  rw [show handOverKind k f s = _ from handOver_eq hh (beq_iff_eq.2 hkind), hop]
  exact finishHand_running hp hlist

/-- What such a request writes: its events in the event list, and its answer. -/
theorem reportedThen_writes {code w0 w1 : Nat} {slot : Nat} {s v : State} {c : Chainage} {as : List Act}
    (hr : RegionsOk s) (hw : Working s) (has : ∀ a ∈ as, IsEvent a) :
    let t := reportedThen as (.answer slot code w0 w1) c s v
    Writes (as ++ [.answer slot code w0 w1]) { released s with chainage := c } t ∧ HoldsAnswer slot code w0 w1 t
      ∧ SameOutside [slotHead slot, eventList s] s t ∧ SameListButEvents s t
      ∧ ∀ e, Act.event e ∈ as → e.kind < 24 → Reported e.kind t := by
  have hr' : RegionsOk { released s with chainage := c } := hr
  have hw' : Working { released s with chainage := c } := hw
  have hacting : Acting (Within [slotHead slot, eventList s] { released s with chainage := c })
      { released s with chainage := c }
      (reportedThen as (.answer slot code w0 w1) c s { released s with chainage := c }) :=
    (ready_self hr' hw').acting fun a ha => by
      obtain ha | ha := List.mem_append.1 ha
      · obtain ⟨e, rfl⟩ := has a ha
        exact within_event e (List.mem_cons_of_mem _ (List.mem_singleton_self _))
      · rw [List.mem_singleton.1 ha]
        exact within_answer code w0 w1 List.mem_cons_self
  refine ⟨writes_put .., ?_, hacting.sameOutside, hacting.list_eq, fun e he hk => ?_⟩
  · rw [reportedThen, List.foldl_append]
    exact answered_holds ((acted_acts (as := as) hr' hw').wf hr.1)
  · exact acts_reported hk hr' hw' (List.mem_append_left _ he)

/-! ## MARK_SET (R120) -/

theorem markSetRefused_iff (args : List Byte) : markSetRefused args = true ↔
    (bitAt args 0 0 || bitAt args 0 1 || bitAt args 0 2 || bitAt args 0 3 || bitAt args 0 4) = false
      ∨ (bitAt args 0 1 = true ∧ 1 < u8 args 1) ∨ (bitAt args 0 2 = true ∧ 1 < u8 args 2) := by
  have hnone : u8 args 0 % 32 = 0 ↔ _ := u8_mod_two_pow (n := 5)
  simp only [markSetRefused, Bool.or_eq_true, Bool.and_eq_true, beq_iff_eq, decide_eq_true_eq, or_assoc, hnone,
    Bool.or_eq_false_iff, Nat.forall_lt_succ_right, Nat.not_lt_zero, false_imp_iff, implies_true, true_and]

theorem intoRange_ne_iff {x : Int} : intoRange x ≠ x ↔ x < -999994 ∨ 9999994 < x := by
  simp only [intoRange, clampInt, Config.xMin, Config.xMax]
  omega

theorem markSetClamped_iff (args : List Byte) : markSetClamped args = true ↔
    (bitAt args 0 0 = true ∧ markIntervalInRange (u32 args 4) ≠ u32 args 4)
      ∨ (bitAt args 0 2 = true ∧ u8 args 2 = 0 ∧ (s32 args 8 < -999994 ∨ 9999994 < s32 args 8)) := by
  simp only [markSetClamped, Bool.or_eq_true, Bool.and_eq_true, bne_iff_ne, beq_iff_eq, and_assoc, intoRange_ne_iff]

/-- X has reached the stop target in the travel direction. -/
def AtTarget (c : Chainage) : Prop :=
  ∃ y ∈ c.stopTarget, (c.travel = .increasing → y ≤ c.x) ∧ (c.travel = .decreasing → c.x ≤ y)

theorem targetFlags_fired {c : Chainage} : (targetFlags c).fired = true ↔ c.fired = true ∨ AtTarget c := by
  have hfires : (firedTarget c).isSome = true ↔ c.fired = false ∧ AtTarget c := firedTarget_isSome
  rw [targetFlags, Bool.or_eq_true, hfires]
  cases c.fired <;> simp

theorem targetFlags_stopTarget {c : Chainage} : (targetFlags c).reasons.stopTarget = true ↔
    c.reasons.stopTarget = true ∨ (c.fired = false ∧ AtTarget c) := by
  have hfires : (firedTarget c).isSome = true ↔ c.fired = false ∧ AtTarget c := firedTarget_isSome
  rw [targetFlags, Bool.or_eq_true, hfires]

theorem targetActs_eq (s : State) : targetActs s = if (firedTarget s.chainage).isSome then
    .event (Event.stopReached (s.chainage.stopTarget.getD 0) s.chainage.x)
      :: (if s.chainage.autoStop then orderWrites .stop s else []) else [] := by
  unfold targetActs
  cases hy : firedTarget s.chainage with
  | none => rfl
  | some y =>
    obtain ⟨-, ht, -⟩ := firedTarget_eq_some.1 hy
    rw [ht]
    rfl

/-- The first act of a stop target that fires is its event. -/
theorem stopReached_mem {s : State} (h : (firedTarget s.chainage).isSome = true) :
    Act.event (Event.stopReached (s.chainage.stopTarget.getD 0) s.chainage.x) ∈ targetActs s := by
  rw [targetActs_eq, if_pos h]
  exact List.mem_cons_self

/-- The chainage unit after a MARK_SET, field by field (R120). -/
theorem markSet_eq (args : List Byte) (c : Chainage) : c.markSet args =
    let interval := if bitAt args 0 0 then markIntervalInRange (u32 args 4) else c.markInterval
    let travel := if bitAt args 0 1 then (if u8 args 1 = 0 then .increasing else .decreasing) else c.travel
    { c with
      markInterval := interval, travel := travel
      stopTarget := if bitAt args 0 2 then (if u8 args 2 = 0 then some (intoRange (s32 args 8)) else none)
        else c.stopTarget
      nextMark := armedMark { c with markInterval := interval, travel := travel }
      fired := c.fired && !bitAt args 0 2
      autoMark := if bitAt args 0 3 then bitAt args 3 0 else c.autoMark
      autoStop := if bitAt args 0 4 then bitAt args 3 1 else c.autoStop } := rfl

/-- Settles O25: the values are set and the marks armed, then the stop target is evaluated, then the answer is written. -/
theorem markSetReplacesAndEvaluates : Obligations.MarkSetReplacesAndEvaluates := by
  intro r s h c has iv tg refused interval travel target moved reached
  have hrefused : markSetRefused r.args = true ↔ refused := markSetRefused_iff r.args
  have hmoved : markSetClamped r.args = true ↔ moved := by
    simp only [moved, interval, and_ite_iff, has]
    exact markSetClamped_iff r.args
  refine ⟨fun hbad => congrArg Host.Outcome.next (handOverKind_refused h (if_pos (hrefused.2 hbad))), fun hok => ?_⟩
  obtain ⟨hp, -, -, -, hr, -⟩ := id h
  have hc : c.markSet r.args = _ := markSet_eq r.args c
  have hfired : (c.markSet r.args).fired = false ↔ c.fired = false ∨ has 2 = true := by
    rw [hc]
    cases c.fired <;> simp [has]
  have hfires : (firedTarget (c.markSet r.args)).isSome = true ↔ (c.fired = false ∨ has 2 = true) ∧ reached := by
    rw [firedTarget_isSome, hfired]
    rfl
  have hready : Ready { released s with chainage := c } { released s with chainage := c.markSet r.args } :=
    ⟨hr, .inl hp, { working := .inl hp }⟩
  let v : State := { released s with chainage := c.markSet r.args }
  let u : State := { v with chainage := targetFlags v.chainage, still := targetStill v }
  have heval : evalTarget v = put ((targetActs v).foldl act { released s with chainage := c }) u :=
    evalTarget_apt (.inl hready)
  have hop : markSetOp r (released s) = (let t := evalTarget v
      complete r.slot (if markSetClamped r.args then rcClamped else rcOk) (wordOfInt (t.chainage.nextMark.getD 0))
        (if t.chainage.fired then 1 else 0) t) := if_neg fun hbad => hok (hrefused.1 hbad)
  have hcode : (if markSetClamped r.args then rcClamped else rcOk) = if moved then 1 else 0 := if_congr hmoved rfl rfl
  have hx : handOverKind 5 markSetOp s = reportedThen (targetActs v) (.answer r.slot (if moved then 1 else 0)
      (wordOfInt (u.chainage.nextMark.getD 0)) (if u.chainage.fired then 1 else 0)) c s u :=
    handOverKind_reports h hready.change hp (by rw [hop, heval, hcode]; rfl)
  obtain ⟨hwrites, hholds, hout, hlist, hrep⟩ := reportedThen_writes (v := u) (c := c) (code := if moved then 1 else 0)
    (w0 := wordOfInt (u.chainage.nextMark.getD 0)) (w1 := if u.chainage.fired then 1 else 0) (slot := r.slot)
    hr (.inl hp) (targetActs_event (s := v))
  have hfirst : (!c.fired || has 2) = true ↔ c.fired = false ∨ has 2 = true := by simp
  have hbool : ((!c.fired || has 2) && decide reached) = (firedTarget v.chainage).isSome := by
    rw [Bool.eq_iff_iff, Bool.and_eq_true, hfirst, decide_eq_true_iff, hfires]
  have hacts : targetActs v = _ := targetActs_eq v
  refine ⟨_, congrArg Host.Outcome.next hx, rfl, ?_, ?_, fun hf hr => ?_, ⟨?_, ?_⟩, hholds, hout, hlist, rfl⟩
  · refine (targetFlags_fired (c := v.chainage)).trans (or_congr ?_ Iff.rfl)
    simp [v, hc, has]
  · exact (targetFlags_stopTarget (c := v.chainage)).trans (or_congr Iff.rfl (and_congr_left fun _ => hfired))
  · exact hrep _ (stopReached_mem (s := v) (hfires.2 ⟨hf, hr⟩)) (show 1 < 24 by decide)
  · rw [hbool]
    exact hacts ▸ hwrites
  · rw [hbool]
    rfl

end Sys2Proof.Proofs

namespace Sys2Proof.Proofs

open Sys2Proof.Machine Sys2Proof.Safety Sys2Proof.Laws

/-! ## CHAINAGE_RUN (R114 to R116) -/

theorem runStep_stopped {selector : Nat} {c : Chainage} (h : c.run = .stopped) (hs : selector ≠ 1) :
    c.runStep selector = c := by
  unfold Chainage.runStep
  split
  · exact absurd rfl hs
  · rename_i hr
    cases h.symm.trans hr
  · rfl

/-- The run part starts a stopped unit, stops a running one, or leaves the unit. -/
theorem runStep_cases (selector : Nat) (c : Chainage) :
    (selector = 1 ∧ c.run = .stopped ∧ c.runStep selector = c.start)
      ∨ (selector = 2 ∧ c.run = .running ∧ c.runStep selector = c.stop)
      ∨ ((selector = 1 → c.run = .running) ∧ (selector = 2 → c.run = .stopped) ∧ c.runStep selector = c) := by
  unfold Chainage.runStep
  split
  · rename_i hr
    exact .inl ⟨rfl, hr, rfl⟩
  · rename_i hr
    exact .inr (.inl ⟨rfl, hr, rfl⟩)
  · rename_i hstart hstop
    refine .inr (.inr ⟨fun hs => ?_, fun hs => ?_, rfl⟩)
    · cases hr : c.run with
      | stopped => exact (hstart hs hr).elim
      | running => rfl
    · cases hr : c.run with
      | stopped => rfl
      | running => exact (hstop hs hr).elim

/-- What the run part changes: the values of a start, or the run state and the rejections of a stop. -/
theorem runStep_frame (selector : Nat) (c : Chainage) :
    let d := c.runStep selector
    d = { c with
      run := d.run, rejects := d.rejects, baseX := d.baseX
      originCount := d.originCount, originValid := d.originValid } := by
  obtain ⟨-, -, h⟩ | ⟨-, -, h⟩ | ⟨-, -, h⟩ := runStep_cases selector c <;> rw [h] <;> rfl

theorem runStep_kept (selector : Nat) (c : Chainage) :
    let d := c.runStep selector
    d.held = c.held ∧ d.lastCount = c.lastCount ∧ d.stopTarget = c.stopTarget := by
  obtain ⟨-, -, h⟩ | ⟨-, -, h⟩ | ⟨-, -, h⟩ := runStep_cases selector c <;> rw [h] <;> exact ⟨rfl, rfl, rfl⟩

theorem runStep_run (selector : Nat) (c : Chainage) : (c.runStep selector).run =
    if selector = 1 then .running else if selector = 2 then .stopped else c.run := by
  obtain ⟨rfl, -, h⟩ | ⟨rfl, -, h⟩ | ⟨hstart, hstop, h⟩ := runStep_cases selector c <;> rw [h]
  · rfl
  · rfl
  · split
    · exact hstart ‹_›
    · split
      · exact hstop ‹_›
      · rfl

theorem runStep_of_run_eq {selector : Nat} {c : Chainage} (hr : c.run = (c.runStep selector).run) :
    c.runStep selector = c := by
  obtain ⟨-, hc, h⟩ | ⟨-, hc, h⟩ | ⟨-, -, h⟩ := runStep_cases selector c
  · rw [h, hc] at hr
    cases hr
  · rw [h, hc] at hr
    cases hr
  · exact h

theorem runStep_start {c : Chainage} (h : c.run = .stopped) : c.runStep 1 = c.start := by
  simp only [Chainage.runStep, h]

theorem runStep_stop {c : Chainage} (h : c.run = .running) : c.runStep 2 = c.stop := by
  simp only [Chainage.runStep, h]

theorem runCode_eq (x : RunState) : x.code = if x = .running then 1 else 0 := by
  cases x <;> rfl

/-- The zero of a CHAINAGE_RUN is asked for and taken (R114 step 1). -/
def zeroes (r : Request) (c : Chainage) : Prop := u8 r.args 1 = 1 ∧ c.run = .stopped ∧ u8 r.args 0 ≠ 1

theorem zeroes_iff {r : Request} {c : Chainage} :
    zeroes r c ↔ u8 r.args 1 = 1 ∧ zeroTaken (u8 r.args 0) c = true := by
  simp only [zeroes, zeroTaken, Bool.and_eq_true, beq_iff_eq, bne_iff_ne]

section

variable {r : Request} {s : State}

/-- A CHAINAGE_RUN whose zero is taken: the run part finds the unit stopped and does not start it. -/
theorem chainageRunOp_zeroes (hrun : u8 r.args 0 ≤ 2) (hz : zeroes r s.chainage) : chainageRunOp r s =
    let t := evalTarget { s with chainage := s.chainage.zero }
    let t := { t with chainage := t.chainage.runStep (u8 r.args 0) }
    complete r.slot 0 (wordOfInt t.chainage.x) t.chainage.run.code t := by
  obtain ⟨hsel, htaken⟩ := zeroes_iff.1 hz
  unfold chainageRunOp
  rw [if_neg (by omega)]
  simp only [hsel, htaken, and_self, if_true, Bool.true_eq_false, and_false, if_false]
  rfl

/-- A CHAINAGE_RUN without a zero, or whose zero is refused. -/
theorem chainageRunOp_plain (hrun : u8 r.args 0 ≤ 2) (hsel : u8 r.args 1 ≤ 1) (hz : ¬ zeroes r s.chainage) :
    chainageRunOp r s =
      let t := { s with chainage := s.chainage.runStep (u8 r.args 0) }
      complete r.slot (if u8 r.args 1 = 1 then 16 else 0) (wordOfInt t.chainage.x) t.chainage.run.code t := by
  have hcode : u8 r.args 1 = 1 ∧ zeroTaken (u8 r.args 0) s.chainage = false ↔ u8 r.args 1 = 1 := by
    refine and_iff_left_of_imp fun h1 => ?_
    exact Bool.eq_false_iff.2 fun ht => hz (zeroes_iff.2 ⟨h1, ht⟩)
  unfold chainageRunOp
  rw [if_neg (by omega)]
  simp only [hcode]
  rw [if_neg fun h => hz (zeroes_iff.2 h)]
  rfl

/-- A CHAINAGE_RUN whose zero is taken, handed over. -/
theorem chainageRun_zeroes (h : InHand 3 r s) (hrun : u8 r.args 0 ≤ 2) (hz : zeroes r s.chainage) :
    let v := { released s with chainage := s.chainage.zero }
    let d := targetFlags s.chainage.zero
    exec .chainageRun s = .next (reportedThen (targetActs v)
      (.answer r.slot 0 (wordOfInt d.x) (if d.run = .running then 1 else 0))
      { s.chainage with x := s.chainage.originValue } s { v with chainage := d, still := targetStill v }) := by
  intro v d
  obtain ⟨hp, -, -, -, hr, -⟩ := id h
  have hready : Ready { released s with chainage := { s.chainage with x := s.chainage.originValue } } v :=
    ⟨hr, .inl hp, { working := .inl hp }⟩
  have heval : evalTarget v = put ((targetActs v).foldl act _) { v with chainage := d, still := targetStill v } :=
    evalTarget_apt (.inl hready)
  have hrest : d.runStep (u8 r.args 0) = d := runStep_stopped (c := d) hz.2.1 hz.2.2
  refine congrArg Host.Outcome.next (handOverKind_reports h hready.change hp ?_)
  have hop : chainageRunOp r (released s) = (let t := evalTarget v
      let t := { t with chainage := t.chainage.runStep (u8 r.args 0) }
      complete r.slot 0 (wordOfInt t.chainage.x) t.chainage.run.code t) :=
    chainageRunOp_zeroes (s := released s) hrun hz
  rw [hop, heval, ← runCode_eq]
  simp only [put]
  rw [hrest]

/-- A CHAINAGE_RUN without a zero, or whose zero is refused, handed over. -/
theorem chainageRun_plain (h : InHand 3 r s) (hrun : u8 r.args 0 ≤ 2) (hsel : u8 r.args 1 ≤ 1)
    (hz : ¬ zeroes r s.chainage) :
    let d := s.chainage.runStep (u8 r.args 0)
    exec .chainageRun s = .next (reportedThen [] (.answer r.slot (if u8 r.args 1 = 1 then 16 else 0) (wordOfInt d.x)
      (if d.run = .running then 1 else 0)) { s.chainage with x := d.x } s { released s with chainage := d }) := by
  intro d
  obtain ⟨hp, -, -, -, hr, -⟩ := id h
  refine congrArg Host.Outcome.next (handOverKind_reports h ⟨hr, .inl hp, { working := .inl hp }⟩ hp ?_)
  exact (chainageRunOp_plain (s := released s) hrun hsel hz).trans (by rw [← runCode_eq]; rfl)

end

/-- Settles O22: a zero taken leaves nothing to the run part; without one the run part alone acts. -/
theorem chainageRunZeroesStartsStops : Obligations.ChainageRunZeroesStartsStops := by
  intro r s h hrun hsel c yes no zeroed fires stop
  obtain ⟨hp, -, -, -, hr, -⟩ := id h
  by_cases hz : zeroed
  · have hx := chainageRun_zeroes h hrun hz
    obtain ⟨hzero, hstopped, hno⟩ := id hz
    have hfires : fires = firedTarget c.zero := if_pos hz
    have hstop : stop = targetActs { released s with chainage := c.zero } := by
      simp only [stop, targetActs, hfires]
      cases firedTarget c.zero <;> rfl
    have hcode : (if u8 r.args 1 = 1 ∧ ¬ zeroed then 16 else 0) = 0 := if_neg fun hc => hc.2 hz
    obtain ⟨hwrites, hholds, hout, hlist, hrep⟩ := reportedThen_writes
      (v := { released s with
        chainage := targetFlags c.zero, still := targetStill { released s with chainage := c.zero } })
      (c := { c with x := c.originValue }) (code := 0) (w0 := wordOfInt c.originValue)
      (w1 := if c.run = .running then 1 else 0) (slot := r.slot) hr (.inl hp)
      (targetActs_event (s := { released s with chainage := c.zero }))
    have hend : c.run = if yes then .running else if no then .stopped else c.run := by
      rw [if_neg hno, hstopped, ite_self]
    rw [hstop, hcode, hfires]
    refine ⟨_, hx, hwrites, rfl, hend, hholds, rfl, rfl, rfl, fun hc => absurd hz hc, fun _ hc => absurd hz hc,
      fun _ hc => absurd hc hno, fun hc => absurd (hstopped.symm.trans hc) (by decide), fun _ => ⟨rfl, ?_, ?_⟩,
      hout, hlist, rfl⟩
    · exact (targetFlags_fired (c := c.zero)).trans (or_iff_right nofun)
    · intro hf
      have hat : AtTarget c.zero := ((targetFlags_fired (c := c.zero)).1 hf).resolve_left nofun
      exact ⟨targetFlags_stopTarget.2 (.inr ⟨rfl, hat⟩),
        hrep _ (stopReached_mem (firedTarget_isSome.2 ⟨rfl, hat⟩)) (show 1 < 24 by decide)⟩
  · have hx := chainageRun_plain h hrun hsel hz
    have hfires : fires = none := if_neg hz
    have hcode : (if u8 r.args 1 = 1 ∧ ¬ zeroed then 16 else 0) = if u8 r.args 1 = 1 then 16 else 0 :=
      if_congr (and_iff_left hz) rfl rfl
    obtain ⟨hwrites, hholds, hout, hlist, -⟩ := reportedThen_writes
      (v := { released s with chainage := c.runStep (u8 r.args 0) }) (c := { c with x := (c.runStep (u8 r.args 0)).x })
      (code := if u8 r.args 1 = 1 then 16 else 0) (w0 := wordOfInt (c.runStep (u8 r.args 0)).x) (as := [])
      (w1 := if (c.runStep (u8 r.args 0)).run = .running then 1 else 0) (slot := r.slot) hr (.inl hp) nofun
    simp only [stop, hfires, hcode]
    obtain ⟨hheld, hcount, htarget⟩ := runStep_kept (u8 r.args 0) c
    refine ⟨_, hx, hwrites, rfl, runStep_run .., hholds, hheld, hcount, htarget, fun _ => runStep_frame _ c,
      fun hc _ => runStep_of_run_eq hc,
      fun hc hy => ?_, fun hc hn => ?_, fun hc => absurd hc hz, hout, hlist, rfl⟩
    · have hstart : c.runStep (u8 r.args 0) = c.start := hy ▸ runStep_start hc
      exact ⟨congrArg Chainage.baseX hstart, congrArg Chainage.rejects hstart, congrArg Chainage.originValid hstart,
        fun hr => (congrArg Chainage.originCount hstart).trans (if_pos hr)⟩
    · have hstop : c.runStep (u8 r.args 0) = c.stop := hn ▸ runStep_stop hc
      exact hstop

end Sys2Proof.Proofs

namespace Sys2Proof.Proofs

open Sys2Proof.Machine Sys2Proof.Safety Sys2Proof.Laws

/-! ## A message on the line (R128, R129) -/

theorem rxBytes_cons (rx : Rx) (b : Byte) (bs : List Byte) :
    rxBytes rx (b :: bs) =
      ((rxBytes (rxByte rx b).1 bs).1, (rxByte rx b).2.toList ++ (rxBytes (rxByte rx b).1 bs).2) := rfl

/-- A byte that ends no message goes on with the rest. -/
theorem rxBytes_step {rx rx' : Rx} {b : Byte} {bs : List Byte} (h : rxByte rx b = (rx', none)) :
    rxBytes rx (b :: bs) = rxBytes rx' bs := by
  rw [rxBytes_cons, h]
  rfl

/-- The receiver after the whole payload, before the CRC. -/
def payloadTaken (address kind : Byte) (payload : List Byte) : Rx :=
  { state := .crcHigh, address := address, kind := kind, length := payload.length, payload := payload
    crc := crcOf (address :: kind :: byte payload.length :: payload) }

/-- The receiver with a part of the payload taken. -/
def payloadPart (address kind : Byte) (n : Nat) (taken : List Byte) : Rx :=
  { state := .payload, address := address, kind := kind, length := n, payload := taken
    crc := crcOf (address :: kind :: byte n :: taken) }

theorem crcOf_snoc (bs : List Byte) (b : Byte) : crcOf (bs ++ [b]) = crcByte (crcOf bs) b :=
  List.foldl_concat ..

theorem rxByte_payload {address kind b : Byte} {n : Nat} {taken : List Byte} (h : taken.length + 1 < n) :
    rxByte (payloadPart address kind n taken) b = (payloadPart address kind n (taken ++ [b]), none) := by
  have hcrc := crcOf_snoc (address :: kind :: byte n :: taken) b
  have hlen : (taken ++ [b]).length < n := by simpa using h
  simp only [List.cons_append] at hcrc
  simp only [rxByte, payloadPart, hlen, if_true, hcrc]

theorem rxByte_payload_last {address kind b : Byte} {taken : List Byte} :
    rxByte (payloadPart address kind (taken.length + 1) taken) b
      = (payloadTaken address kind (taken ++ [b]), none) := by
  have hcrc := crcOf_snoc (address :: kind :: byte (taken.length + 1) :: taken) b
  simp only [List.cons_append] at hcrc
  simp only [rxByte, payloadPart, payloadTaken, List.length_append, List.length_singleton, lt_irrefl, if_false, hcrc]

/-- The bytes of a payload that are still to come are taken one by one. -/
theorem rxBytes_payload {address kind : Byte} : ∀ {rest taken : List Byte} {n : Nat} {bs : List Byte}, rest ≠ [] →
    n = taken.length + rest.length →
    rxBytes (payloadPart address kind n taken) (rest ++ bs) = rxBytes (payloadTaken address kind (taken ++ rest)) bs
  | [b], taken, n, bs, _, hn => by
    subst hn
    exact rxBytes_step rxByte_payload_last
  | b :: b' :: rest, taken, n, bs, _, hn => by
    have hn' : n = (taken ++ [b]).length + (b' :: rest).length := by
      simp only [hn, List.length_append, List.length_cons, List.length_nil]
      omega
    have hstep : rxByte (payloadPart address kind n taken) b = (payloadPart address kind n (taken ++ [b]), none) :=
      rxByte_payload (by simp only [hn, List.length_cons]; omega)
    rw [List.cons_append, rxBytes_step hstep, rxBytes_payload (List.cons_ne_nil _ _) hn', List.append_assoc]
    rfl

/-- Start byte, address, kind and length, and after them the payload. -/
theorem rxBytes_header {rx : Rx} {address kind : Byte} {payload bs : List Byte} (h : rx.state = .hunt)
    (hl : payload.length ≤ 32) :
    rxBytes rx (0xC5 :: address :: kind :: byte payload.length :: (payload ++ bs))
      = rxBytes (payloadTaken address kind payload) bs := by
  have hlen : (byte payload.length).toNat = payload.length := by
    simp only [byte, BitVec.toNat_ofNat]
    omega
  have hstart : rxByte rx 0xC5 = ({ state := .address, crc := 0xFFFF }, none) := by
    simp only [rxByte, h, if_true]
  have hlength (rx : Rx) (hs : rx.state = .length) : rxByte rx (byte payload.length) =
      ({ rx with state := if payload.length = 0 then .crcHigh else .payload, length := payload.length,
                 crc := crcByte rx.crc (byte payload.length) }, none) := by
    simp only [rxByte, hs, hlen]
    exact if_neg (Nat.not_lt.2 hl)
  rw [rxBytes_step hstart, rxBytes_step rfl, rxBytes_step rfl, rxBytes_step (hlength _ rfl)]
  cases payload with
  | nil => rfl
  | cons b rest => exact rxBytes_payload (taken := []) (List.cons_ne_nil b rest) (Nat.zero_add _).symm

/-- The CRC as its two bytes, the higher first. -/
theorem crc_bytes (r : BitVec 16) : r.extractLsb' 8 8 ++ r.extractLsb' 0 8 = r := by
  refine BitVec.eq_of_getLsbD_eq fun i hi => ?_
  rw [BitVec.getLsbD_append, BitVec.getLsbD_extractLsb', BitVec.getLsbD_extractLsb', Nat.zero_add]
  by_cases hlow : i < 8
  · rw [if_pos hlow, decide_eq_true hlow, Bool.true_and]
  · rw [if_neg hlow, decide_eq_true (by omega : i - 8 < 8), Bool.true_and, Nat.add_sub_cancel' (Nat.not_lt.1 hlow)]

/-- A message framed on the line reaches the end of the receiver whole (R128). -/
theorem rxBytes_wireBytes {rx : Rx} {address kind : Byte} {payload : List Byte} (h : rx.state = .hunt)
    (hl : payload.length ≤ 32) :
    rxBytes rx (wireBytes address kind payload) = ({}, [⟨address, kind, payload⟩]) := by
  let crc := crcOf (address :: kind :: byte payload.length :: payload)
  have hlow : rxByte { payloadTaken address kind payload with state := .crcLow, crcHigh := crc.extractLsb' 8 8 }
      (crc.extractLsb' 0 8) = ({}, some ⟨address, kind, payload⟩) :=
    congrArg (Prod.mk _) (if_pos (crc_bytes crc))
  refine (rxBytes_header h hl (bs := [crc.extractLsb' 8 8, crc.extractLsb' 0 8])).trans ?_
  rw [rxBytes_step rfl, rxBytes_cons]
  rw [show rxByte _ _ = _ from hlow]
  rfl

/-! ## The link hears a message (R131) -/

/-- The event of a link that becomes UP. -/
def upActs (kind : Byte) (s : State) : List Act :=
  if s.link.state = .up then [] else [.event (Event.linkUp s.link.state kind)]

theorem upActs_event {kind : Byte} {s : State} : ∀ a ∈ upActs kind s, IsEvent a := by
  intro a ha
  unfold upActs at ha
  split at ha
  · exact absurd ha List.not_mem_nil
  · exact ⟨_, List.mem_singleton.1 ha⟩

/-- The state after a message has been heard, but for what it writes. -/
def heard (m : Nat) (s : State) : State := { s with now := max s.now m, link := heardLink m s }

theorem linkHeard_apt {s : State} (h : ErrorFree s) (kind : Byte) (m : Nat) :
    linkHeard kind (setRx {} (advance m s)) = put ((upActs kind s).foldl act s) (heard m s) := by
  have happly : Apt s (heard m s) := (apt_self h).change
  unfold upActs
  by_cases hu : s.link.state = .up
  · rw [if_pos hu]
    exact if_pos hu
  · rw [if_neg hu]
    exact (if_neg hu).trans (emit_apt happly _)

/-- What is heard in full is the message, handed to its owner. -/
theorem receive_arrives {isIt : LinkMsg → Bool} {m : Nat} {address kind : Byte} {payload bytes : List Byte} {s : State}
    (ha : Arrives address kind payload bytes s) (hs : ErrorFree s) (hit : isIt ⟨address, kind, payload⟩ = true) :
    receive isIt m bytes s
      = route ⟨address, kind, payload⟩ (put ((upActs kind s).foldl act s) (heard m s)) := by
  obtain ⟨hactive, hhunt, hlen, rfl, hfilter⟩ := ha
  unfold receive
  rw [rxBytes_wireBytes hhunt hlen]
  refine (if_pos (by rw [hactive, hfilter, hit]; rfl)).trans ?_
  rw [acceptMessage, linkHeard_apt hs]

/-- The payload of an accepted REEL has five bytes (R130). -/
theorem reel_length {cfg : Cfg} {address : Byte} {payload : List Byte}
    (h : filterAccepts cfg ⟨address, 1, payload⟩ = true) : payload.length = 5 := by
  simp only [filterAccepts, Bool.and_eq_true] at h
  obtain ⟨-, hk⟩ := h
  exact beq_iff_eq.1 hk

/-- The count of a REEL, most significant byte first. -/
theorem reelCount_eq {payload : List Byte} (h : payload.length = 5) :
    reelCount payload = BitVec.ofNat 32 ((payload.take 4).foldl (fun n b => 256 * n + b.toNat) 0) := by
  obtain ⟨b0, b1, b2, b3, b4, rfl⟩ : ∃ b0 b1 b2 b3 b4, payload = [b0, b1, b2, b3, b4] := by
    match payload, h with
    | [b0, b1, b2, b3, b4], _ => exact ⟨b0, b1, b2, b3, b4, rfl⟩
  refine congrArg (BitVec.ofNat 32) ?_
  simp only [u8, List.getD_cons_zero, List.getD_cons_succ, List.take_succ_cons, List.take_zero, List.foldl_cons,
    List.foldl_nil]
  omega

/-- The count that stands in a payload, as the obligations write it. -/
def wireCount (payload : List Byte) : Word :=
  BitVec.ofNat 32 ((payload.take 4).foldl (fun n b => 256 * n + b.toNat) 0)

/-- A REEL is heard and handed to the chainage unit (R108). -/
theorem exec_reel {m : Nat} {address : Byte} {payload bytes : List Byte} {s : State}
    (ha : Arrives address 1 payload bytes s) (hs : ErrorFree s) : exec (.reel m bytes) s = .next
      (reelOp (wireCount payload) (bitAt payload 4 0) (put ((upActs 1 s).foldl act s) (heard m s))) := by
  have hlen := reel_length ha.2.2.2.2
  refine congrArg Host.Outcome.next ((receive_arrives ha hs rfl).trans ?_)
  rw [wireCount, ← reelCount_eq hlen]
  rfl

/-- So it is under the name CHAINAGE_RESYNC, where the REEL is one (R111). -/
theorem exec_chainageResync {m : Nat} {address : Byte} {payload bytes : List Byte} {s : State}
    (ha : Arrives address 1 payload bytes s) (hs : ErrorFree s) (hd : resyncDue s ⟨address, 1, payload⟩ = true) :
    exec (.chainageResync m bytes) s = exec (.reel m bytes) s :=
  congrArg Host.Outcome.next ((receive_arrives ha hs (by rw [hd]; rfl)).trans (receive_arrives ha hs rfl).symm)

end Sys2Proof.Proofs

namespace Sys2Proof.Proofs

open Sys2Proof.Machine Sys2Proof.Safety Sys2Proof.Laws

/-! ## What a REEL writes

A REEL is heard first, and its LINK_UP is written with X as before. The chainage unit then writes with X as it leaves
it. `reelEnd d as s u` is the state after that: the link's event, X (and the rest of the unit) as in `d`, the acts `as`
of the chainage unit, and the blocks as in `u`. -/

/-- The state after a REEL that writes `as` with the chainage unit as in `d` and leaves the blocks as in `u`. -/
def reelEnd (d : Chainage) (as : List Act) (s u : State) : State :=
  put (as.foldl act { (upActs 1 s).foldl act s with chainage := d }) u

section

variable {s u : State} {d : Chainage} {as : List Act}

theorem upActs_errorFree (h : ErrorFree s) : ErrorFree ((upActs 1 s).foldl act s) := by
  obtain ⟨es, hes⟩ := exists_events upActs_event (as := upActs 1 s)
  rw [hes]
  exact h.events

/-- Events write in the event list alone, and move the event cursor and the mask alone. -/
theorem isEvent_outside (h : ErrorFree s) (has : ∀ a ∈ as, IsEvent a) :
    SameOutside [eventList s] s (as.foldl act s) ∧ SameListButEvent s (as.foldl act s)
      ∧ (as.foldl act s).cfg = s.cfg := by
  obtain ⟨es, rfl⟩ := exists_events has
  have hacted := h.acted (es := es)
  refine ⟨?_, hacted.list_eq, by rw [hacted.frame]; rfl⟩
  obtain ⟨hw, hr⟩ | hp := h
  · exact events_sameOutside hr hw
  · rw [events_faulted hp]
    exact fun _ _ => rfl

/-- What is heard leaves the chainage unit. -/
theorem up_chainage (h : ErrorFree s) :
    { (upActs 1 s).foldl act s with chainage := s.chainage } = (upActs 1 s).foldl act s := by
  obtain ⟨es, hes⟩ := exists_events upActs_event (as := upActs 1 s)
  have hframe := (h.acted (es := es)).frame
  rw [← hes] at hframe
  generalize (upActs 1 s).foldl act s = w at hframe
  rw [hframe]
  rfl

/-- With the chainage unit as before, the link's event and the others are written one after the other. -/
theorem reelEnd_writes (h : ErrorFree s) : Writes (upActs 1 s ++ as) s (reelEnd s.chainage as s u) := by
  rw [reelEnd, up_chainage h, ← List.foldl_append]
  exact writes_put ..

theorem reelEnd_writes_none (h : ErrorFree s) : Writes (upActs 1 s) s (reelEnd s.chainage [] s u) := by
  rw [reelEnd, up_chainage h]
  exact writes_put ..

/-- A REEL leaves memory outside the event list, and the list engine but for the event cursor and the mask. -/
theorem reelEnd_outside (h : ErrorFree s) (has : ∀ a ∈ as, IsEvent a) :
    SameOutside [eventList s] s (reelEnd d as s u) ∧ SameListButEvent s (reelEnd d as s u) := by
  obtain ⟨hout, hlist, hcfg⟩ := isEvent_outside h upActs_event (as := upActs 1 s)
  have hup : ErrorFree { (upActs 1 s).foldl act s with chainage := d } := (upActs_errorFree h).change
  obtain ⟨hout', hlist', -⟩ := isEvent_outside hup has
  have hevents : eventList { (upActs 1 s).foldl act s with chainage := d } = eventList s := by
    rw [eventList, eventList, ← hcfg]
  rw [hevents] at hout'
  refine ⟨sameOutside_trans hout hout', ?_⟩
  rw [SameListButEvent, reelEnd, put_list, hlist', hlist]

/-- An event of the chainage unit is reported. -/
theorem reelEnd_reported {e : Event} (h : ErrorFree s) (hw : Working s) (he : Act.event e ∈ as) (hk : e.kind < 24) :
    Reported e.kind (reelEnd d as s u) := by
  have hup := acted_acts (as := upActs 1 s) ((h.resolve_right (ne_faulted_of_working hw)).2) hw
  exact acts_reported (w := { (upActs 1 s).foldl act s with chainage := d }) hk
    (hup.regionsOk (h.resolve_right (ne_faulted_of_working hw)).2) (hup.working hw) he

/-- The chainage unit finds the REEL heard, and X may change where the events read it too. -/
theorem heard_apt (h : ErrorFree s) (m : Nat) {c : Chainage} (hx : c.x = d.x := by rfl) :
    Apt { (upActs 1 s).foldl act s with chainage := d } { heard m s with chainage := c } :=
  (((apt_self h).change (u := heard m s)).acts (upActs 1 s)).chainage hx

end

/-! ## A REEL outside tracking (R108, R109) -/

/-- The event of HELD, where it is set. -/
def heldActs (linkLost : Bool) (c : Chainage) : List Act :=
  if c.held then [] else [.event (Event.chainageHeld linkLost)]

theorem setHeld_apt {w v : State} (h : Apt w v) (linkLost : Bool) : setHeld linkLost (put w v)
    = put ((heldActs linkLost v.chainage).foldl act w) { v with chainage := { v.chainage with held := true } } := by
  unfold heldActs
  cases hheld : v.chainage.held with
  | true =>
    refine (if_pos (show (put w v).chainage.held = true from hheld)).trans ?_
    rw [if_pos rfl, ← hheld]
    rfl
  | false =>
    refine (if_neg (show ¬ (put w v).chainage.held = true by rw [put, hheld]; decide)).trans ?_
    exact emit_apt (v := { v with chainage := { v.chainage with held := true } }) h.change _

/-- The event of a unit that was HELD. -/
def unheldActs (held : Bool) (x : Int) (count : Word) : List Act :=
  if held then [.event (Event.chainageResumed x count)] else []

theorem resumed_apt {w v : State} (h : Apt w v) (held : Bool) (count : Word) :
    Machine.resumed held count (put w v) = put ((unheldActs held v.chainage.x count).foldl act w) v := by
  cases held with
  | true => exact emit_apt h _
  | false => rfl

theorem unheldActs_event {held : Bool} {x : Int} {count : Word} : ∀ a ∈ unheldActs held x count, IsEvent a := by
  cases held with
  | true => exact fun a ha => ⟨_, List.mem_singleton.1 ha⟩
  | false => exact nofun

theorem heldActs_event {linkLost : Bool} {c : Chainage} : ∀ a ∈ heldActs linkLost c, IsEvent a := by
  unfold heldActs
  split
  · exact nofun
  · exact fun a ha => ⟨_, List.mem_singleton.1 ha⟩

theorem isEvent_append {as bs : List Act} (ha : ∀ a ∈ as, IsEvent a) (hb : ∀ a ∈ bs, IsEvent a) :
    ∀ a ∈ as ++ bs, IsEvent a := fun a h => (List.mem_append.1 h).elim (ha a) (hb a)

/-- The chainage unit with its origin established at a count (R109). -/
def originAt (count : Word) (c : Chainage) : Chainage :=
  { c with
    originCount := count, lastCount := count, countReceived := true, originValid := true, x := c.baseX
    saturated := false, rejects := 0, held := false, nextMark := armedMark { c with x := c.baseX } }

/-- The origin is established: HELD ends, and the stop target is evaluated at the base chainage. -/
theorem establishOrigin_heard {s : State} (h : ErrorFree s) (m : Nat) (count : Word) :
    let c := s.chainage
    let v := { heard m s with chainage := originAt count c }
    establishOrigin count (put ((upActs 1 s).foldl act s) (heard m s))
      = reelEnd { c with x := c.baseX } (unheldActs c.held c.baseX count ++ targetActs v) s
          { v with chainage := targetFlags v.chainage, still := targetStill v } := by
  intro c v
  have hapt : Apt { (upActs 1 s).foldl act s with chainage := { c with x := c.baseX } } v := heard_apt h m
  have hres := resumed_apt hapt c.held count
  rw [reelEnd, List.foldl_append, ← evalTarget_apt (hapt.acts _)]
  exact congrArg evalTarget hres

theorem reelOp_fault (count : Word) (s : State) : reelOp count true s = setHeld false s := rfl

theorem reelOp_stopped {s : State} (h : s.chainage.run = .stopped) (count : Word) : reelOp count false s
    = { s with chainage := { s.chainage with lastCount := count, countReceived := true } } := by
  simp only [reelOp, h, Bool.false_eq_true, if_false]

theorem reelOp_running {s : State} (h : s.chainage.run = .running) (count : Word) : reelOp count false s
    = if s.chainage.originValid then checkCandidate count s else establishOrigin count s := by
  simp only [reelOp, h, Bool.false_eq_true, if_false]

section

variable {m : Nat} {address : Byte} {payload bytes : List Byte} {s : State}

/-- A REEL with the encoder fault flag sets HELD (R108). -/
theorem exec_reel_fault (ha : Arrives address 1 payload bytes s) (hs : ErrorFree s) (hf : bitAt payload 4 0 = true) :
    exec (.reel m bytes) s = .next (reelEnd s.chainage (heldActs false s.chainage) s
      { heard m s with chainage := { s.chainage with held := true } }) := by
  rw [exec_reel ha hs, hf, reelOp_fault]
  exact congrArg Host.Outcome.next (setHeld_apt (heard_apt (d := s.chainage) (c := s.chainage) hs m) false)

/-- A REEL in STOPPED leaves its count (R108). -/
theorem exec_reel_stopped (ha : Arrives address 1 payload bytes s) (hs : ErrorFree s) (hf : bitAt payload 4 0 = false)
    (hr : s.chainage.run = .stopped) : exec (.reel m bytes) s = .next (reelEnd s.chainage [] s
      { heard m s with chainage := { s.chainage with lastCount := wireCount payload, countReceived := true } }) := by
  rw [exec_reel ha hs, hf]
  exact congrArg Host.Outcome.next (reelOp_stopped (s := put _ (heard m s)) hr _)

/-- A REEL in RUNNING without an origin establishes it (R109). -/
theorem exec_reel_origin (ha : Arrives address 1 payload bytes s) (hs : ErrorFree s) (hf : bitAt payload 4 0 = false)
    (hr : s.chainage.run = .running) (ho : s.chainage.originValid = false) :
    let c := s.chainage
    let v := { heard m s with chainage := originAt (wireCount payload) c }
    exec (.reel m bytes) s = .next (reelEnd { c with x := c.baseX }
      (unheldActs c.held c.baseX (wireCount payload) ++ targetActs v) s
      { v with chainage := targetFlags v.chainage, still := targetStill v }) := by
  intro c v
  rw [exec_reel ha hs, hf, reelOp_running (s := put _ (heard m s)) hr]
  refine congrArg Host.Outcome.next ((if_neg ?_).trans (establishOrigin_heard hs m _))
  exact Bool.eq_false_iff.1 ho

end

theorem run_cases (c : Chainage) : c.run = .stopped ∨ c.run = .running := by
  cases c.run
  · exact .inl rfl
  · exact .inr rfl

/-- Settles O47: the fault flag, STOPPED, and RUNNING without an origin in turn. -/
theorem reelOutsideTracking : Obligations.ReelOutsideTracking := by
  intro m address payload bytes s harr hs hcase count c up fires stops
  cases hfault : bitAt payload 4 0 with
  | true =>
    obtain ⟨hout, hlist⟩ := reelEnd_outside (d := c) (u := { heard m s with chainage := { c with held := true } }) hs
      (heldActs_event (linkLost := false) (c := c))
    refine ⟨_, exec_reel_fault harr hs hfault, rfl, fun _ => ⟨reelEnd_writes hs, rfl⟩, nofun, nofun,
      fun _ => ⟨rfl, fun hh hw => ?_⟩, nofun, nofun, hout, hlist, rfl⟩
    exact reelEnd_reported hs hw (e := Event.chainageHeld false) (by simp [heldActs, hh]) (show 3 < 24 by decide)
  | false =>
    obtain hrun | hrun := run_cases c
    · have hstill : c.run ≠ .running := by rw [hrun]; decide
      obtain ⟨hout, hlist⟩ := reelEnd_outside (d := c) (as := [])
        (u := { heard m s with chainage := { c with lastCount := count, countReceived := true } }) hs nofun
      exact ⟨_, exec_reel_stopped harr hs hfault hrun, rfl, nofun, fun _ _ => ⟨reelEnd_writes_none hs, rfl⟩,
        fun _ hr => absurd hr hstill, nofun, fun _ _ => rfl, fun _ hr => absurd hr hstill, hout, hlist, rfl⟩
    · have hstarted : c.run ≠ .stopped := by rw [hrun]; decide
      have hvalid : c.originValid = false := (hcase.resolve_left (Bool.eq_false_iff.1 hfault)).resolve_left hstarted
      let v : State := { heard m s with chainage := originAt count c }
      have hstops : stops = targetActs v := by
        rw [targetActs]
        cases fires <;> rfl
      obtain ⟨hout, hlist⟩ := reelEnd_outside (d := { c with x := c.baseX })
        (u := { v with chainage := targetFlags v.chainage, still := targetStill v }) hs
        (isEvent_append (unheldActs_event (held := c.held) (x := c.baseX) (count := count)) (targetActs_event (s := v)))
      rw [hstops]
      refine ⟨_, exec_reel_origin harr hs hfault hrun hvalid, rfl, nofun, fun _ hr => absurd hr hstarted,
        fun _ _ => ⟨rfl, rfl, writes_put ..⟩, nofun, fun _ hr => absurd hr hstarted,
        fun _ _ _ => ⟨rfl, rfl, rfl, rfl, rfl, rfl, rfl, rfl, fun hh hw => ?_, rfl⟩, hout, hlist, rfl⟩
      have hmem : Act.event (Event.chainageResumed c.baseX count)
          ∈ unheldActs c.held c.baseX count ++ targetActs v := by
        rw [unheldActs, if_pos hh]
        exact List.mem_cons_self
      exact reelEnd_reported hs hw hmem (show 4 < 24 by decide)

end Sys2Proof.Proofs

namespace Sys2Proof.Proofs

open Sys2Proof.Machine Sys2Proof.Safety Sys2Proof.Laws

/-! ## The marks (R119) -/

/-- The next mark, where X has crossed it. -/
def crossedMark (c : Chainage) : Option Int := c.nextMark.filter (markCrossed c)

/-- The next mark after the evaluation. -/
def marksNext (c : Chainage) : Option Int :=
  match crossedMark c with
  | none => c.nextMark
  | some y => some (markBeyond c y (marksCrossed c y))

/-- What the evaluation of the marks writes. -/
def markActs (s : State) : List Act :=
  match crossedMark s.chainage with
  | none => []
  | some y =>
    let n := marksCrossed s.chainage y
    .event (Event.mark (markBeyond s.chainage y (n - 1)) n s.chainage.x)
      :: if s.chainage.autoMark then orderWrites .mark s else []

/-- The state after the evaluation, but for what it writes. -/
def marksPassed (s : State) : State :=
  { s with
    chainage := { s.chainage with nextMark := marksNext s.chainage }
    overlay := { s.overlay with flash := if (crossedMark s.chainage).isSome && decide (s.part ≠ .faulted) then
      s.overlay.flashLen else s.overlay.flash }
    still := if (crossedMark s.chainage).isSome && s.chainage.autoMark then orderedStill .mark s else s.still }

theorem markActs_event {s : State} : ∀ a ∈ markActs s, IsEvent a := by
  intro a ha
  unfold markActs at ha
  split at ha
  · exact absurd ha List.not_mem_nil
  · obtain rfl | ha := List.mem_cons.1 ha
    · exact ⟨_, rfl⟩
    · split at ha
      · exact orderWrites_event a ha
      · exact absurd ha List.not_mem_nil

theorem crossedMark_eq_some {c : Chainage} {y : Int} :
    crossedMark c = some y ↔ c.nextMark = some y ∧ markCrossed c y = true := Option.filter_eq_some_iff

theorem evalMarks_of_none {s : State} (h : crossedMark s.chainage = none) : evalMarks s = s := by
  unfold evalMarks
  split
  · rfl
  · rename_i y hy
    refine if_neg fun hc => ?_
    rw [crossedMark_eq_some.2 ⟨hy, hc⟩] at h
    cases h

theorem evalMarks_of_some {s : State} {y : Int} (h : crossedMark s.chainage = some y) : evalMarks s =
    let n := marksCrossed s.chainage y
    let t := { s with chainage := { s.chainage with nextMark := some (markBeyond s.chainage y n) } }
    let t := startFlash (emit (Event.mark (markBeyond s.chainage y (n - 1)) n s.chainage.x) t)
    if t.chainage.autoMark then autoStill .mark t else t := by
  obtain ⟨hy, hc⟩ := crossedMark_eq_some.1 h
  unfold evalMarks
  rw [hy]
  exact if_pos hc

/-- The banner flash starts, but in FAULTED (R119). -/
def flashed (s : State) : State :=
  { s with overlay := { s.overlay with
      flash := if s.part ≠ .faulted then s.overlay.flashLen else s.overlay.flash } }

theorem startFlash_put (w v : State) : startFlash (put w v) = put w (flashed v) := by
  unfold startFlash flashed
  by_cases hp : v.part = .faulted
  · rw [if_pos (show (put w v).part = _ from hp), if_neg (not_not_intro hp)]
  · rw [if_neg (show ¬ (put w v).part = _ from hp), if_pos hp]
    rfl

theorem marksPassed_of_some {s : State} {y : Int} (h : crossedMark s.chainage = some y) : marksPassed s =
    { flashed s with
      chainage := { s.chainage with nextMark := some (markBeyond s.chainage y (marksCrossed s.chainage y)) }
      still := if s.chainage.autoMark then orderedStill .mark s else s.still } := by
  simp only [marksPassed, marksNext, h, Option.isSome_some, Bool.true_and, decide_eq_true_eq]
  rfl

/-- An evaluation of the marks writes `markActs` and leaves `marksPassed`. -/
theorem evalMarks_apt {w v : State} (h : Apt w v) :
    evalMarks (put w v) = put ((markActs v).foldl act w) (marksPassed v) := by
  cases hy : crossedMark v.chainage with
  | none =>
    rw [evalMarks_of_none (s := put w v) hy]
    simp only [markActs, marksPassed, marksNext, hy]
    rfl
  | some y =>
    let n := marksCrossed v.chainage y
    let e := Event.mark (markBeyond v.chainage y (n - 1)) n v.chainage.x
    let moved : State := { v with chainage := { v.chainage with nextMark := some (markBeyond v.chainage y n) } }
    have hmoved : Apt w moved := h.change
    have hflash : startFlash (emit e (put w moved)) = put (act w (.event e)) (flashed moved) := by
      rw [emit_apt hmoved, startFlash_put]
    have heval : evalMarks (put w v) = (let t := startFlash (emit e (put w moved))
        if t.chainage.autoMark then autoStill .mark t else t) := evalMarks_of_some (s := put w v) hy
    rw [heval, hflash, marksPassed_of_some hy, markActs, hy]
    cases hauto : v.chainage.autoMark with
    | false => exact if_neg (Bool.eq_false_iff.1 hauto)
    | true => exact (if_pos hauto).trans (autoStill_apt ((hmoved.change (u := flashed moved)).acts [.event e]) rfl)

/-! ### The arithmetic of the marks, as the obligations write it -/

/-- The travel direction as a sign. -/
def wayOf (c : Chainage) : Int := if c.travel = .increasing then 1 else -1

theorem targetReached_eq (c : Chainage) : targetReached c = fun y => decide (0 ≤ wayOf c * (c.x - y)) := by
  funext y
  cases h : c.travel <;> simp only [targetReached, wayOf, h, if_true, reduceCtorEq, if_false] <;>
    exact decide_eq_decide.2 (by omega)

theorem marksCrossed_eq (c : Chainage) :
    marksCrossed c = fun y => (Int.fdiv (wayOf c * (c.x - y)) c.markInterval + 1).toNat := by
  funext y
  cases h : c.travel
  · simp only [marksCrossed, wayOf, h, if_true, Int.one_mul]
  · simp only [marksCrossed, wayOf, h, reduceCtorEq, if_false, Int.neg_mul, Int.one_mul, Int.neg_sub]

theorem markBeyond_eq (c : Chainage) (y : Int) (n : Nat) : markBeyond c y n = y + wayOf c * n * c.markInterval := by
  cases h : c.travel
  · simp only [markBeyond, wayOf, h, if_true, Int.one_mul]
  · simp only [markBeyond, wayOf, h, reduceCtorEq, if_false, Int.neg_mul, Int.one_mul, Int.sub_eq_add_neg]

theorem marksNext_eq (c : Chainage) : marksNext c =
    (crossedMark c).elim c.nextMark fun y => some (y + wayOf c * marksCrossed c y * c.markInterval) := by
  unfold marksNext
  cases crossedMark c with
  | none => rfl
  | some y => exact congrArg some (markBeyond_eq c y _)

theorem markActs_eq (s : State) : markActs s = (crossedMark s.chainage).elim [] fun y =>
    .event (Event.mark (y + wayOf s.chainage * (marksCrossed s.chainage y - 1 : Nat) * s.chainage.markInterval)
      (marksCrossed s.chainage y) s.chainage.x) :: if s.chainage.autoMark then orderWrites .mark s else [] := by
  unfold markActs
  cases crossedMark s.chainage with
  | none => rfl
  | some y =>
    simp only [markBeyond_eq]
    rfl

/-- From a distance on, the marks passed reach beyond it by one interval at most. -/
theorem passed_bounds {d : Int} {i : Nat} (hd : 0 ≤ d) (hi : 0 < i) :
    d < (Int.fdiv d i + 1).toNat * i ∧ (Int.fdiv d i + 1).toNat * (i : Int) - i ≤ d := by
  have hpos : (0 : Int) < i := by omega
  have hquot : 0 ≤ Int.fdiv d i := Int.fdiv_nonneg hd hpos.le
  have hle : Int.fdiv d i * i ≤ d := by
    rw [Int.fdiv_eq_ediv_of_nonneg d hpos.le]
    exact Int.ediv_mul_le d hpos.ne'
  rw [Int.toNat_of_nonneg (by omega)]
  refine ⟨(fdiv_succ_least (by omega)).1, ?_⟩
  rw [Int.add_mul, Int.one_mul]
  omega

/-! ### Where the next mark goes -/

section

variable {c : Chainage} {next : Int}

theorem marksNext_of_none (h : crossedMark c = none) : marksNext c = c.nextMark := by
  rw [marksNext, h]

theorem marksNext_of_some (h : crossedMark c = some next) :
    marksNext c = some (markBeyond c next (marksCrossed c next)) := by
  rw [marksNext, h]

/-- Upwards, a mark beyond X stays. -/
theorem marksNext_ahead (hn : c.nextMark = some next) (ht : c.travel = .increasing) (hx : c.x < next) :
    marksNext c = some next := by
  have hnot : markCrossed c next = false := by
    simp only [markCrossed, ht]
    exact decide_eq_false (Int.not_le.2 hx)
  rw [marksNext_of_none, hn]
  rw [crossedMark, hn, Option.filter_some, hnot]
  rfl

theorem crossedMark_up (hn : c.nextMark = some next) (ht : c.travel = .increasing) (hx : next ≤ c.x) :
    crossedMark c = some next := by
  refine crossedMark_eq_some.2 ⟨hn, ?_⟩
  simp only [markCrossed, ht]
  exact decide_eq_true hx

theorem crossedMark_down (hn : c.nextMark = some next) (ht : c.travel = .decreasing) (hx : c.x ≤ next) :
    crossedMark c = some next := by
  refine crossedMark_eq_some.2 ⟨hn, ?_⟩
  simp only [markCrossed, ht]
  exact decide_eq_true hx

/-- Upwards, the next mark is the first of its row beyond X. -/
theorem marksNext_up (hn : c.nextMark = some next) (ht : c.travel = .increasing) (hx : next ≤ c.x)
    (hi : 0 < c.markInterval) : ∃ k : Nat, marksNext c = some (next + k * c.markInterval)
      ∧ c.x < next + k * c.markInterval ∧ next + k * c.markInterval - c.markInterval ≤ c.x := by
  obtain ⟨hlo, hhi⟩ := passed_bounds (d := c.x - next) (by omega) hi
  refine ⟨marksCrossed c next, ?_, ?_⟩
  · rw [marksNext_of_some (crossedMark_up hn ht hx), markBeyond, ht]
  · simp only [marksCrossed, ht]
    omega

/-- Downwards likewise. -/
theorem marksNext_down (hn : c.nextMark = some next) (ht : c.travel = .decreasing) (hx : c.x ≤ next)
    (hi : 0 < c.markInterval) : ∃ k : Nat, marksNext c = some (next - k * c.markInterval)
      ∧ next - k * c.markInterval < c.x ∧ c.x ≤ next - k * c.markInterval + c.markInterval := by
  obtain ⟨hlo, hhi⟩ := passed_bounds (d := next - c.x) (by omega) hi
  refine ⟨marksCrossed c next, ?_, ?_⟩
  · rw [marksNext_of_some (crossedMark_down hn ht hx), markBeyond, ht]
  · simp only [marksCrossed, ht]
    omega

/-- The first act of a mark crossed is its event. -/
theorem mark_mem {s : State} {y : Int} (h : crossedMark s.chainage = some y) : Act.event (Event.mark
    (markBeyond s.chainage y (marksCrossed s.chainage y - 1)) (marksCrossed s.chainage y) s.chainage.x)
    ∈ markActs s := by
  rw [markActs, h]
  exact List.mem_cons_self

end

end Sys2Proof.Proofs

namespace Sys2Proof.Proofs

open Sys2Proof.Machine Sys2Proof.Safety Sys2Proof.Laws

/-! ## A REEL in tracking (R110 to R112) -/

/-- The event of a candidate that is taken as a resync. -/
def resyncActs (resync : Bool) (c : Chainage) (count : Word) (raw : Int) : List Act :=
  if resync then [.event (Event.chainageResync c.x (intoRange raw) count)] else []

theorem resyncActs_event {resync : Bool} {c : Chainage} {count : Word} {raw : Int} :
    ∀ a ∈ resyncActs resync c count raw, IsEvent a := by
  cases resync with
  | true => exact fun a ha => ⟨_, List.mem_singleton.1 ha⟩
  | false => exact fun a ha => absurd ha List.not_mem_nil

/-- The state with a candidate accepted, before the marks and the stop target. -/
def accepted (m : Nat) (count : Word) (raw : Int) (s : State) : State :=
  { heard m s with chainage := s.chainage.accept count raw }

/-- What an accepted candidate writes, after the link's event. -/
def acceptActs (resync : Bool) (m : Nat) (count : Word) (raw : Int) (s : State) : List Act :=
  resyncActs resync s.chainage count raw ++ unheldActs s.chainage.held (intoRange raw) count
    ++ markActs (accepted m count raw s) ++ targetActs (marksPassed (accepted m count raw s))

/-- What it leaves besides. -/
def acceptEnd (m : Nat) (count : Word) (raw : Int) (s : State) : State :=
  let v := marksPassed (accepted m count raw s)
  { v with chainage := targetFlags v.chainage, still := targetStill v }

theorem acceptActs_event {resync : Bool} {m : Nat} {count : Word} {raw : Int} {s : State} :
    ∀ a ∈ acceptActs resync m count raw s, IsEvent a :=
  isEvent_append (isEvent_append (isEvent_append resyncActs_event unheldActs_event) markActs_event) targetActs_event

theorem resync_apt {w v : State} (h : Apt w v) (resync : Bool) (c : Chainage) (count : Word) (raw : Int) :
    (if resync then emit (Event.chainageResync c.x (intoRange raw) count) (put w v) else put w v)
      = put ((resyncActs resync c count raw).foldl act w) v := by
  cases resync with
  | true => exact emit_apt h _
  | false => rfl

/-- A candidate is accepted: X first, then CHAINAGE_RESYNC, HELD, the marks and the stop target (R112). -/
theorem acceptCandidate_heard {s : State} (h : ErrorFree s) (resync : Bool) (m : Nat) (count : Word) (raw : Int) :
    acceptCandidate resync count raw (put ((upActs 1 s).foldl act s) (heard m s))
      = reelEnd { s.chainage with x := intoRange raw } (acceptActs resync m count raw s) s
          (acceptEnd m count raw s) := by
  have hapt : Apt { (upActs 1 s).foldl act s with chainage := { s.chainage with x := intoRange raw } }
      (accepted m count raw s) := heard_apt h m
  have hsync := resync_apt hapt resync s.chainage count raw
  have hres := resumed_apt (hapt.acts (resyncActs resync s.chainage count raw)) s.chainage.held count
  have hmarks := evalMarks_apt ((hapt.acts (resyncActs resync s.chainage count raw)).acts
    (unheldActs s.chainage.held (intoRange raw) count))
  have hpassed := ((hapt.acts (resyncActs resync s.chainage count raw)).acts
    (unheldActs s.chainage.held (intoRange raw) count)).acts (markActs (accepted m count raw s))
  have htarget := evalTarget_apt (hpassed.change (u := marksPassed (accepted m count raw s)))
  rw [reelEnd, acceptActs, List.foldl_append, List.foldl_append, List.foldl_append]
  refine Eq.trans ?_ htarget
  rw [← hmarks]
  refine Eq.trans ?_ (congrArg (fun u => evalTarget (evalMarks u)) hres)
  rw [← hsync]
  rfl

/-- The candidate of a REEL lies within the step limit of X. -/
theorem withinStep_iff {c : Chainage} {raw : Int} :
    withinStep c raw = true ↔ (intoRange raw - c.x).natAbs ≤ c.stepLimit := decide_eq_true_iff

theorem checkCandidate_accepted {s : State} {count : Word}
    (h : withinStep s.chainage (rawCandidate s.chainage count) = true
    ∨ 2 ≤ s.chainage.rejects) : checkCandidate count s = acceptCandidate
      (!withinStep s.chainage (rawCandidate s.chainage count)) count (rawCandidate s.chainage count) s := by
  unfold checkCandidate
  cases hn : withinStep s.chainage (rawCandidate s.chainage count) with
  | true => exact if_pos hn
  | false =>
    have hr : ¬ s.chainage.rejects < 2 := Nat.not_lt.2 (h.resolve_left (by rw [hn]; decide))
    exact (if_neg (Bool.eq_false_iff.1 hn)).trans (if_neg hr)

theorem checkCandidate_rejected {s : State} {count : Word}
    (h : withinStep s.chainage (rawCandidate s.chainage count) = false) (hr : s.chainage.rejects < 2) :
    checkCandidate count s = { s with chainage := { s.chainage with rejects := s.chainage.rejects + 1 } } := by
  exact (if_neg (Bool.eq_false_iff.1 h)).trans (if_pos hr)

section

variable {m : Nat} {address : Byte} {payload bytes : List Byte} {s : State}

/-- The candidate of the REEL in a payload. -/
def wireCandidate (payload : List Byte) (c : Chainage) : Int := rawCandidate c (wireCount payload)

theorem exec_reel_tracking (ha : Arrives address 1 payload bytes s) (hs : ErrorFree s) (hf : bitAt payload 4 0 = false)
    (hr : s.chainage.run = .running) (ho : s.chainage.originValid = true) :
    exec (.reel m bytes) s
      = .next (checkCandidate (wireCount payload) (put ((upActs 1 s).foldl act s) (heard m s))) := by
  rw [exec_reel ha hs, hf, reelOp_running (s := put _ (heard m s)) hr]
  exact congrArg Host.Outcome.next (if_pos ho)

/-- A REEL within the step limit, or the third in a row beyond it, is accepted (R111). -/
theorem exec_reel_accepted (ha : Arrives address 1 payload bytes s) (hs : ErrorFree s) (hf : bitAt payload 4 0 = false)
    (hr : s.chainage.run = .running) (ho : s.chainage.originValid = true)
    (hn : withinStep s.chainage (wireCandidate payload s.chainage) = true ∨ 2 ≤ s.chainage.rejects) :
    let raw := wireCandidate payload s.chainage
    exec (.reel m bytes) s = .next (reelEnd { s.chainage with x := intoRange raw }
      (acceptActs (!withinStep s.chainage raw) m (wireCount payload) raw s) s
      (acceptEnd m (wireCount payload) raw s)) := by
  intro raw
  rw [exec_reel_tracking ha hs hf hr ho]
  refine congrArg Host.Outcome.next ((checkCandidate_accepted (s := put _ (heard m s)) hn).trans ?_)
  exact acceptCandidate_heard hs _ m _ raw

/-- Another is rejected and counted (R111). -/
theorem exec_reel_rejected (ha : Arrives address 1 payload bytes s) (hs : ErrorFree s) (hf : bitAt payload 4 0 = false)
    (hr : s.chainage.run = .running) (ho : s.chainage.originValid = true)
    (hn : withinStep s.chainage (wireCandidate payload s.chainage) = false) (hrej : s.chainage.rejects < 2) :
    exec (.reel m bytes) s = .next (reelEnd s.chainage [] s
      { heard m s with chainage := { s.chainage with rejects := s.chainage.rejects + 1 } }) := by
  rw [exec_reel_tracking ha hs hf hr ho]
  exact congrArg Host.Outcome.next (checkCandidate_rejected (s := put _ (heard m s)) hn hrej)

theorem resyncDue_of (hl : payload.length = 5) (hf : bitAt payload 4 0 = false) (hr : s.chainage.run = .running)
    (ho : s.chainage.originValid = true) (hn : withinStep s.chainage (wireCandidate payload s.chainage) = false)
    (hrej : 2 ≤ s.chainage.rejects) : resyncDue s ⟨address, 1, payload⟩ = true := by
  have hn' : withinStep s.chainage (rawCandidate s.chainage (reelCount payload)) = false := reelCount_eq hl ▸ hn
  simp only [resyncDue, hr, ho, hf, hn', hrej, decide_true]
  rfl

end

section

variable {resync : Bool} {m : Nat} {word : Word} {raw : Int} {s : State}

theorem resync_mem_accept (h : resync = true) :
    Act.event (Event.chainageResync s.chainage.x (intoRange raw) word) ∈ acceptActs resync m word raw s := by
  refine List.mem_append_left _ (List.mem_append_left _ (List.mem_append_left _ ?_))
  rw [resyncActs, if_pos h]
  exact List.mem_singleton_self _

theorem resumed_mem_accept (h : s.chainage.held = true) :
    Act.event (Event.chainageResumed (intoRange raw) word) ∈ acceptActs resync m word raw s := by
  refine List.mem_append_left _ (List.mem_append_left _ (List.mem_append_right _ ?_))
  rw [unheldActs, if_pos h]
  exact List.mem_singleton_self _

theorem mark_mem_accept {y : Int} (h : crossedMark (s.chainage.accept word raw) = some y) :
    let c := s.chainage.accept word raw
    Act.event (Event.mark (markBeyond c y (marksCrossed c y - 1)) (marksCrossed c y) c.x)
      ∈ acceptActs resync m word raw s :=
  List.mem_append_left _ (List.mem_append_right _ (mark_mem (s := accepted m word raw s) h))

/-- A mark crossed starts the flash, but in FAULTED. -/
theorem flash_accept {y : Int} (h : crossedMark (s.chainage.accept word raw) = some y) (hp : s.part ≠ .faulted) :
    (acceptEnd m word raw s).overlay.flash = s.overlay.flashLen := by
  have hcrossed : ((crossedMark (s.chainage.accept word raw)).isSome && decide (s.part ≠ .faulted)) = true := by
    rw [h, decide_eq_true hp]
    rfl
  exact if_pos hcrossed

end

/-- The chainage unit after a candidate has been accepted, field by field (R112, R119, R121). -/
theorem acceptEnd_chainage (m : Nat) (count : Word) (raw : Int) (s : State) :
    let c := s.chainage
    let c' := c.accept count raw
    (acceptEnd m count raw s).chainage = { c with
      x := intoRange raw, lastCount := count, countReceived := true, saturated := decide (intoRange raw ≠ raw)
      rejects := 0, held := false, nextMark := marksNext c', fired := c.fired || (firedTarget c').isSome
      reasons := { c.reasons with stopTarget := c.reasons.stopTarget || (firedTarget c').isSome } } := by
  intro c c'
  have hsaturated : (intoRange raw != raw) = decide (intoRange raw ≠ raw) := by
    rw [Bool.eq_iff_iff, bne_iff_ne, decide_eq_true_iff]
  rw [← hsaturated]
  rfl

/-- Settles O46: a candidate is accepted, or rejected and counted. -/
theorem reelAcceptedOrRejected : Obligations.ReelAcceptedOrRejected := by
  intro m address payload bytes s harr hs hfault hrun horigin count raw x near c word up way passed crossed number fires
    marked marks stops
  let c' := c.accept word raw
  have hnear : withinStep c raw = true ↔ near := withinStep_iff
  by_cases haccept : near ∨ 2 ≤ c.rejects
  · have hx := exec_reel_accepted (m := m) harr hs hfault hrun horigin (haccept.imp_left hnear.2)
    obtain ⟨hout, hlist⟩ := reelEnd_outside (d := { c with x := x }) (u := acceptEnd m word raw s) hs
      (acceptActs_event (resync := !withinStep c raw) (m := m) (count := word) (raw := raw) (s := s))
    have hreport {e : Event} (he : Act.event e ∈ acceptActs (!withinStep c raw) m word raw s) (hk : e.kind < 24)
        (hw : Working s) : Reported e.kind (reelEnd { c with x := x } _ s (acceptEnd m word raw s)) :=
      reelEnd_reported hs hw he hk
    have hpassed : passed = targetReached c' := (targetReached_eq c').symm
    have hnumber : number = marksCrossed c' := (marksCrossed_eq c').symm
    have hcrossed : crossed = crossedMark c' := congrArg (Option.filter · c.nextMark) hpassed
    have hfires : fires = firedTarget c' := by
      simp only [fires, hpassed]
      rfl
    have hmarked : marked = (marksPassed (accepted m word raw s)).still := by
      simp only [marked, hcrossed]
      rfl
    have hnext : marksNext c' = crossed.elim c.nextMark fun y => some (y + way * number y * c.markInterval) := by
      rw [marksNext_eq, ← hcrossed, hnumber]
      rfl
    have hmarks : marks = markActs (accepted m word raw s) := by
      rw [markActs_eq, show crossedMark (accepted m word raw s).chainage = crossed from hcrossed.symm]
      simp only [marks, hnumber]
      cases crossed <;> rfl
    have hstops : stops = targetActs (marksPassed (accepted m word raw s)) := by
      rw [targetActs, show firedTarget (marksPassed (accepted m word raw s)).chainage = fires from hfires.symm]
      simp only [stops, hmarked]
      cases fires <;> rfl
    have hresync : (if near then [] else [Act.event (Event.chainageResync c.x x word)])
        = resyncActs (!withinStep c raw) c word raw := by
      rw [resyncActs]
      by_cases hn : near
      · rw [if_pos hn, hnear.2 hn]
        rfl
      · rw [if_neg hn, Bool.eq_false_iff.2 fun h => hn (hnear.1 h)]
        rfl
    refine ⟨_, hx, rfl, fun _ => ⟨?_, ?_, ?_, ?_⟩, fun hn hr => ?_, fun _ => ?_, fun hn hr => ⟨fun hw => ?_, ?_⟩,
      fun hn hr => ?_, hout, hlist, rfl⟩
    · refine (acceptEnd_chainage m word raw s).trans ?_
      rw [← hfires, hnext]
      cases crossed <;> rfl
    · rw [hfires, hmarked]
      rfl
    · rw [hcrossed]
      rfl
    · rw [hmarks, hstops, hresync]
      exact writes_put ..
    · exact absurd haccept (not_or.2 ⟨hn, Nat.not_le.2 hr⟩)
    · refine ⟨rfl, rfl, congrArg Chainage.saturated (acceptEnd_chainage m word raw s), rfl, rfl, rfl, fun hh hw => ?_,
        fun next hn ht hx => marksNext_ahead (c := c') hn ht hx, fun next hn ht hx hi => ⟨fun hw => ⟨?_, ?_⟩, ?_⟩,
        fun next hn ht hx hi => ⟨fun hw => ?_, ?_⟩, rfl⟩
      · exact hreport (resumed_mem_accept hh) (show 4 < 24 by decide) hw
      · exact hreport (mark_mem_accept (crossedMark_up (c := c') hn ht hx)) (show 0 < 24 by decide) hw
      · exact flash_accept (crossedMark_up (c := c') hn ht hx) (ne_faulted_of_working hw)
      · exact marksNext_up (c := c') hn ht hx hi
      · exact hreport (mark_mem_accept (crossedMark_down (c := c') hn ht hx)) (show 0 < 24 by decide) hw
      · exact marksNext_down (c := c') hn ht hx hi
    · have hfalse : withinStep c raw = false := Bool.eq_false_iff.2 fun h => hn (hnear.1 h)
      exact hreport (resync_mem_accept (congrArg not hfalse)) (show 2 < 24 by decide) hw
    · have hdue := resyncDue_of (address := address) (reel_length harr.2.2.2.2) hfault hrun horigin
        (Bool.eq_false_iff.2 fun h => hn (hnear.1 h)) hr
      exact (exec_chainageResync harr hs hdue).trans hx
    · exact absurd haccept (not_or.2 ⟨hn, Nat.not_le.2 hr⟩)
  · obtain ⟨hfar, hfew⟩ := not_or.1 haccept
    have hfew : c.rejects < 2 := Nat.not_le.1 hfew
    have hfalse : withinStep c raw = false := Bool.eq_false_iff.2 fun h => hfar (hnear.1 h)
    obtain ⟨hout, hlist⟩ := reelEnd_outside (d := c) (as := [])
      (u := { heard m s with chainage := { c with rejects := c.rejects + 1 } }) hs nofun
    exact ⟨_, exec_reel_rejected harr hs hfault hrun horigin hfalse hfew, rfl, fun h => absurd h haccept,
      fun _ _ => ⟨reelEnd_writes_none hs, rfl, rfl⟩, fun h => absurd h haccept,
      fun _ hr => absurd hr (Nat.not_le.2 hfew), fun _ _ => rfl, hout, hlist, rfl⟩

end Sys2Proof.Proofs
